-- ==== Sys2Proof/Word.lean ====
section
/-! DEFINITION. The plain types of the engine: bytes, the 7-bit bus address, the flag word F (R60), the
operation word OPW (R61), the micro-operation word MOW (R62) and the edge index (R12). -/

namespace Sys2Proof

/-- A data byte (R5: 8 bits). -/
abbrev Byte := BitVec 8

/-- `busAddress`: 7 bits, right-aligned, no R/W bit (R11). -/
abbrev BusAddr := BitVec 7

/-- The flag word F (R60): bit 3 SCL_FALL, bit 2 SCL_RISE, bit 1 SDA_FALL, bit 0 SDA_RISE. -/
abbrev FlagWord := BitVec 4

/-- The operation word (R61). -/
abbrev Opw := BitVec 16

/-- The micro-operation word (R62). -/
abbrev Mow := BitVec 8

/-- The value of `edgeCounter`, 0..17 (R12: "a model should type the field as a number below 18"). -/
abbrev EdgeIndex := Fin 18

end Sys2Proof
end

