-- ==== Sys2Proof/Syntax.lean ====
section
/-! DEFINITION. The syntax of the engine: the instructions (one constructor per row of the opcode table,
R63 and R64), and what a step is given from outside (R7, R25). -/

namespace Sys2Proof

/-- `protocolState` (R13). -/
inductive ProtocolState where
  | idle | addressPhase | receiving | transmitting
deriving DecidableEq, Repr, Inhabited

/-- OPW[7:0] (R61): the bits that "never take part in the level-1 choice" (R63). -/
structure OpwTail where
  /-- OPW[7:6]: the state before the event. -/
  protocolState : ProtocolState
  /-- OPW[5]: the SDA level sampled with the event. -/
  sdaLevel : Bool
  /-- OPW[4:0]: the counter before the event. -/
  edgeCounter : BitVec 5
deriving DecidableEq, Repr, Inhabited

/-- The instructions: an event operation of the dispatcher (level 1, R63) or a micro-operation of a SCL
step (level 2, R64). The operands are the bits of the word that the row leaves open, most significant
first. -/
inductive Instr where
  /-- RESET, R190. -/
  | reset (enable busStarted sclLevel : Bool) (flags : FlagWord) (tail : OpwTail)
  /-- HOLD, R95. -/
  | hold (busStarted sclLevel : Bool) (flags : FlagWord) (tail : OpwTail)
  /-- SCLF, R102. -/
  | sclf (sclLevel sclRise sdaFall sdaRise : Bool) (tail : OpwTail)
  /-- SCLF.IGN, R98. -/
  | sclfIgn (sclLevel sclRise sdaFall sdaRise : Bool) (tail : OpwTail)
  /-- SCLR, R103. -/
  | sclr (sclLevel sdaFall sdaRise : Bool) (tail : OpwTail)
  /-- SCLR.IGN, R100. -/
  | sclrIgn (sclLevel sdaFall sdaRise : Bool) (tail : OpwTail)
  /-- START, R110. -/
  | start (sdaRise : Bool) (tail : OpwTail)
  /-- RSTART, R111. -/
  | rstart (sdaRise : Bool) (tail : OpwTail)
  /-- SDAF.IGN, R99. -/
  | sdafIgn (busStarted sdaRise : Bool) (tail : OpwTail)
  /-- STOP, R112. -/
  | stop (tail : OpwTail)
  /-- STOP.IGN, R113. -/
  | stopIgn (tail : OpwTail)
  /-- SDAR.IGN, R101. -/
  | sdarIgn (busStarted : Bool) (tail : OpwTail)
  /-- NOP, R94. -/
  | nop (busStarted sclLevel : Bool) (tail : OpwTail)
  /-- B0REL in Idle or AddressPhase (first row), R121. -/
  | b0rel (rise : Bool) (state : ProtocolState)
  /-- B0REL in Receiving (second row), R121. -/
  | b0relRx (rise : Bool)
  /-- B0TXLD, R122. -/
  | b0txld (rise : Bool)
  /-- SAMPLE in AddressPhase (first row), R124. -/
  | sampleAddr (index : BitVec 4)
  /-- SAMPLE in Receiving (second row), R124. -/
  | sampleRx (index : BitVec 4)
  /-- TXBIT, R125. -/
  | txbit (index : BitVec 4)
  /-- FINRX, R141. -/
  | finrx (rise : Bool)
  /-- FINADDR, R142 and R143. -/
  | finaddr (rise : Bool)
  /-- ACKSLOT, R145. -/
  | ackslot (rise : Bool) (state : ProtocolState)
  /-- CNTINC at index 0..15 (first row), R129. -/
  | cntinc (rise : Bool) (state : ProtocolState) (index : BitVec 4)
  /-- CNTINC at index 16 (second row), R129. -/
  | cntincAck (rise : Bool) (state : ProtocolState)
  /-- CNTWRAP, R130. -/
  | cntwrap (rise : Bool) (state : ProtocolState)
deriving DecidableEq, Repr

/-- The inputs of one event (R7, "Step inputs, event level"). -/
structure EventIn where
  rst : Bool
  enable : Bool
  flags : FlagWord
  sclLevel : Bool
  sdaLevel : Bool
  busAddr : BusAddr
  rxAck : Bool
  txData : Byte
deriving DecidableEq, Repr, Inhabited

/-- The level of a pin at a clock edge (R81). `changing` is a pin in transition at that instant, whose
sample "is either the old or the new level" (R86). -/
inductive Pin where
  | low | high | changing
deriving DecidableEq, Repr, Inhabited

/-- The input ports of one clock cycle (R25). -/
structure CycleIn where
  rst : Bool
  enable : Bool
  sclPin : Pin
  sdaPin : Pin
  busAddr : BusAddr
  rxAck : Bool
  txData : Byte
deriving DecidableEq, Repr, Inhabited

/-- What one step is given from outside, at either level of R4: an event with its flag word, a clock
cycle with the levels of the two pins, or a clock cycle on the wired-AND bus of R53, whose `sdaPin` is
then the master's own SDA output. -/
inductive Stimulus where
  | event (e : EventIn)
  | cycle (c : CycleIn)
  | busCycle (c : CycleIn)
deriving DecidableEq, Repr, Inhabited

end Sys2Proof
end

