-- ==== Sys2Proof/Config.lean ====
section
/-! DEFINITION. The free values of the model: what the spec leaves to the environment. None has a body, so
no proof can rest on a value of one. -/

namespace Sys2Proof

/-- The stimulus of a step whose script is empty: the environment is free (R4: "events as free inputs",
"pins as free inputs"). Indexed by State's `freeIndex`. Log 3. -/
opaque Config.freeStimulus : Nat → Stimulus

/-- What `sample(scl_i)` gives when SCL changes at the clock edge (R86, U12). Log 6. -/
opaque Config.sclDraw : Nat → Bool

/-- What `sample(sda_i)` gives when SDA changes at the clock edge, "independently for the two lines" (R86). Log 6. -/
opaque Config.sdaDraw : Nat → Bool

end Sys2Proof
end

