-- ==== Sys2Proof/WellFormed.lean ====
section
/-! DEFINITION. Which instructions are well formed: those whose operands the rows of R63 and R64 admit. -/

namespace Sys2Proof

/-- The index of a SCL step is 0..17: the values 18..31 have "no meaning" (R66 item 3). -/
def OpwTail.indexOk (t : OpwTail) : Bool := t.edgeCounter.toNat < 18

/-- The states of B0REL's first row: Idle or AddressPhase (R64). -/
def ProtocolState.inB0relRow : ProtocolState → Bool
  | .idle => true
  | .addressPhase => true
  | .receiving => false
  | .transmitting => false

/-- A well-formed instruction. A level-1 row takes any OPW[7:0] (R63), but a SCL step with an index of 18
to 31 performs no row of R64 and is refused (R66 item 3, U2). -/
def Instr.wellFormed : Instr → Bool
  | .sclf _ _ _ _ t => t.indexOk
  | .sclr _ _ _ t => t.indexOk
  | .b0rel _ st => st.inB0relRow
  | .reset _ _ _ _ _ => true
  | .hold _ _ _ _ => true
  | .sclfIgn _ _ _ _ _ => true
  | .sclrIgn _ _ _ _ => true
  | .start _ _ => true
  | .rstart _ _ => true
  | .sdafIgn _ _ _ => true
  | .stop _ => true
  | .stopIgn _ => true
  | .sdarIgn _ _ => true
  | .nop _ _ _ => true
  | .b0relRx _ => true
  | .b0txld _ => true
  | .sampleAddr _ => true
  | .sampleRx _ => true
  | .txbit _ => true
  | .finrx _ => true
  | .finaddr _ => true
  | .ackslot _ _ => true
  | .cntinc _ _ _ => true
  | .cntincAck _ _ => true
  | .cntwrap _ _ => true

end Sys2Proof
end

