-- ==== Sys2Proof/Decode.lean ====
section
/-! DEFINITION. The decoder, read off the two tables of the spec (R63, R64), and the encoder beside it. -/

namespace Sys2Proof

/-! ## Codes and fields -/

/-- The code of a protocol state in OPW[7:6] and MOW[6:5] (R13, R70). -/
def ProtocolState.code : ProtocolState → BitVec 2
  | .idle => 0
  | .addressPhase => 1
  | .receiving => 2
  | .transmitting => 3

/-- The state a code stands for (R70); every code stands for one. -/
def ProtocolState.ofCode (c : BitVec 2) : ProtocolState :=
  match c.getLsbD 1, c.getLsbD 0 with
  | false, false => .idle
  | false, true => .addressPhase
  | true, false => .receiving
  | true, true => .transmitting

/-- A flag word from its four bits, F[3] first (R60). -/
def mkFlags (sclFall sclRise sdaFall sdaRise : Bool) : FlagWord :=
  BitVec.ofBool sclFall ++ BitVec.ofBool sclRise ++ BitVec.ofBool sdaFall ++ BitVec.ofBool sdaRise

/-- The fields of an OPW (R61), bit 15 first. -/
structure OpwFields where
  rst : Bool
  enable : Bool
  busStarted : Bool
  sclLevel : Bool
  flags : FlagWord
  tail : OpwTail
deriving DecidableEq, Repr

/-- OPW[7:0] (R61). -/
def packTail (t : OpwTail) : BitVec 8 :=
  t.protocolState.code ++ BitVec.ofBool t.sdaLevel ++ t.edgeCounter

/-- OPW[15:8] (R61): every bit a level-1 row can select on. -/
def packHead (rst enable busStarted sclLevel : Bool) (flags : FlagWord) : BitVec 8 :=
  BitVec.ofBool rst ++ BitVec.ofBool enable ++ BitVec.ofBool busStarted ++ BitVec.ofBool sclLevel ++ flags

/-- An OPW from its two bytes, OPW[15:8] and OPW[7:0]. -/
def joinOpw (head tail : BitVec 8) : Opw := head ++ tail

/-- The OPW of its fields (R61). -/
def packOpw (f : OpwFields) : Opw :=
  joinOpw (packHead f.rst f.enable f.busStarted f.sclLevel f.flags) (packTail f.tail)

/-- The fields of OPW[7:0] (R61). -/
def unpackTail (b : BitVec 8) : OpwTail :=
  { protocolState := ProtocolState.ofCode (b.extractLsb' 6 2)
    sdaLevel := b.getLsbD 5
    edgeCounter := b.extractLsb' 0 5 }

/-- The fields of an OPW (R61). -/
def unpackOpw (w : Opw) : OpwFields :=
  { rst := w.getLsbD 15
    enable := w.getLsbD 14
    busStarted := w.getLsbD 13
    sclLevel := w.getLsbD 12
    flags := w.extractLsb' 8 4
    tail := unpackTail (w.extractLsb' 0 8) }

/-- The MOW of its fields: `rise ++ protocolState ++ edgeCounter` (R62). -/
def packMow (rise : Bool) (state : ProtocolState) (index : BitVec 5) : Mow :=
  BitVec.ofBool rise ++ state.code ++ index

/-- MOW[7] (R62). -/
def mowRise (m : Mow) : Bool := m.getLsbD 7

/-- MOW[6:5] (R62). -/
def mowState (m : Mow) : ProtocolState := ProtocolState.ofCode (m.extractLsb' 5 2)

/-- MOW[4:0] (R62). -/
def mowIndex (m : Mow) : BitVec 5 := m.extractLsb' 0 5

/-! ## Level 1: the operation table of R63 -/

/-- The thirteen level-1 operations. -/
inductive Level1Op where
  | reset | hold | sclf | sclfIgn | sclr | sclrIgn | start | rstart | sdafIgn | stop | stopIgn | sdarIgn | nop
deriving DecidableEq, Repr

/-- A row of the level-1 table: it matches a word when `OPW & mask == value`. -/
structure OpwRow where
  op : Level1Op
  mask : Opw
  value : Opw
deriving DecidableEq, Repr

/-- The level-1 table (R63), row by row. -/
def opwRows : List OpwRow :=
  [ ⟨.reset,   0x8000, 0x8000⟩,
    ⟨.hold,    0xC000, 0x0000⟩,
    ⟨.sclf,    0xE800, 0x6800⟩,
    ⟨.sclfIgn, 0xE800, 0x4800⟩,
    ⟨.sclr,    0xEC00, 0x6400⟩,
    ⟨.sclrIgn, 0xEC00, 0x4400⟩,
    ⟨.start,   0xFE00, 0x5200⟩,
    ⟨.rstart,  0xFE00, 0x7200⟩,
    ⟨.sdafIgn, 0xDE00, 0x4200⟩,
    ⟨.stop,    0xFF00, 0x7100⟩,
    ⟨.stopIgn, 0xFF00, 0x5100⟩,
    ⟨.sdarIgn, 0xDF00, 0x4100⟩,
    ⟨.nop,     0xCF00, 0x4000⟩ ]

/-- `OPW & mask == value` (R63). -/
def OpwRow.hits (r : OpwRow) (w : Opw) : Bool := (w &&& r.mask) == r.value

/-- The operation whose row matches the word. -/
def level1Op (w : Opw) : Option Level1Op := (opwRows.find? (·.hits w)).map (·.op)

/-- The instruction of an operation, with the bits its row leaves open as operands. -/
def instrOf (op : Level1Op) (f : OpwFields) : Instr :=
  let sclRise := f.flags.getLsbD 2
  let sdaFall := f.flags.getLsbD 1
  let sdaRise := f.flags.getLsbD 0
  match op with
  | .reset => .reset f.enable f.busStarted f.sclLevel f.flags f.tail
  | .hold => .hold f.busStarted f.sclLevel f.flags f.tail
  | .sclf => .sclf f.sclLevel sclRise sdaFall sdaRise f.tail
  | .sclfIgn => .sclfIgn f.sclLevel sclRise sdaFall sdaRise f.tail
  | .sclr => .sclr f.sclLevel sdaFall sdaRise f.tail
  | .sclrIgn => .sclrIgn f.sclLevel sdaFall sdaRise f.tail
  | .start => .start sdaRise f.tail
  | .rstart => .rstart sdaRise f.tail
  | .sdafIgn => .sdafIgn f.busStarted sdaRise f.tail
  | .stop => .stop f.tail
  | .stopIgn => .stopIgn f.tail
  | .sdarIgn => .sdarIgn f.busStarted f.tail
  | .nop => .nop f.busStarted f.sclLevel f.tail

/-- Why a word is no instruction. -/
inductive DecodeError where
  /-- No row of the table matches: a MOW with no row in the phase asked for (safe). -/
  | noRow
  /-- An SCLF or SCLR word with edge index 18..31, which R66 item 3 gives no meaning (safe). -/
  | unreachableIndex
deriving DecidableEq, Repr

/-- Decode an OPW: the operation of R63, refused only where a SCL step has an index no row of R64 takes
(R66 item 3). -/
def decodeOpw (w : Opw) : Except DecodeError Instr :=
  match level1Op w with
  | none => .error .noRow
  | some op =>
    if (instrOf op (unpackOpw w)).wellFormed then .ok (instrOf op (unpackOpw w)) else .error .unreachableIndex

/-! ## Level 2: the micro-operation table of R64 -/

/-- The five phases of a SCL step (R64, R120). -/
inductive Phase where
  | byteStart | dataBit | finalise | ackSlot | counter
deriving DecidableEq, Repr

/-- The twelve rows of the level-2 table. -/
inductive MicroOp where
  | b0rel | b0relRx | b0txld | sampleAddr | sampleRx | txbit | finrx | finaddr | ackslot | cntinc | cntincAck | cntwrap
deriving DecidableEq, Repr

/-- A row of the level-2 table: it matches a word when `MOW & mask == value`. -/
structure MowRow where
  phase : Phase
  op : MicroOp
  mask : Mow
  value : Mow
deriving DecidableEq, Repr

/-- The level-2 table (R64), row by row, in phase order. -/
def mowRows : List MowRow :=
  [ ⟨.byteStart, .b0rel,      0x5F, 0x00⟩,
    ⟨.byteStart, .b0relRx,    0x7F, 0x40⟩,
    ⟨.byteStart, .b0txld,     0x7F, 0x60⟩,
    ⟨.dataBit,   .sampleAddr, 0xF0, 0xA0⟩,
    ⟨.dataBit,   .sampleRx,   0xF0, 0xC0⟩,
    ⟨.dataBit,   .txbit,      0xF0, 0x60⟩,
    ⟨.finalise,  .finrx,      0x7F, 0x4F⟩,
    ⟨.finalise,  .finaddr,    0x7F, 0x2F⟩,
    ⟨.ackSlot,   .ackslot,    0x1F, 0x10⟩,
    ⟨.counter,   .cntinc,     0x10, 0x00⟩,
    ⟨.counter,   .cntincAck,  0x1F, 0x10⟩,
    ⟨.counter,   .cntwrap,    0x1F, 0x11⟩ ]

/-- `MOW & mask == value` (R64). -/
def MowRow.hits (r : MowRow) (m : Mow) : Bool := (m &&& r.mask) == r.value

/-- The instruction of a level-2 row, with the bits the row leaves open as operands. -/
def microInstr (op : MicroOp) (m : Mow) : Instr :=
  let index4 : BitVec 4 := m.extractLsb' 0 4
  match op with
  | .b0rel => .b0rel (mowRise m) (mowState m)
  | .b0relRx => .b0relRx (mowRise m)
  | .b0txld => .b0txld (mowRise m)
  | .sampleAddr => .sampleAddr index4
  | .sampleRx => .sampleRx index4
  | .txbit => .txbit index4
  | .finrx => .finrx (mowRise m)
  | .finaddr => .finaddr (mowRise m)
  | .ackslot => .ackslot (mowRise m) (mowState m)
  | .cntinc => .cntinc (mowRise m) (mowState m) index4
  | .cntincAck => .cntincAck (mowRise m) (mowState m)
  | .cntwrap => .cntwrap (mowRise m) (mowState m)

/-- The micro-operation of one phase, if a row of that phase matches (R64: "at most one row matches per
phase"). -/
def microAt (p : Phase) (m : Mow) : Option Instr :=
  (mowRows.find? (fun r => decide (r.phase = p) && r.hits m)).map (fun r => microInstr r.op m)

/-- Every micro-operation whose row matches the word, in phase order (R64). -/
def microOps (m : Mow) : List Instr := (mowRows.filter (·.hits m)).map (fun r => microInstr r.op m)

/-! ## Code words -/

/-- A word with its format: an OPW, or a MOW read as the row of one phase (the table's "phase" column). -/
inductive CodeWord where
  | opw (w : Opw)
  | mow (p : Phase) (m : Mow)
deriving DecidableEq, Repr

/-- The decoder. -/
def decode : CodeWord → Except DecodeError Instr
  | .opw w => decodeOpw w
  | .mow p m =>
    match microAt p m with
    | none => .error .noRow
    | some i => .ok i

/-- The one micro-operation a bare MOW is read as where no phase is given: the row of the latest phase before
the counter's, else the counter's row. R64 lets several rows match one MOW; this choice is the
model's (DESIGN CHOICE, log 4) and no step uses it. -/
def decodeBareMow (m : Mow) : Option Instr :=
  [Phase.ackSlot, .finalise, .dataBit, .byteStart, .counter].findSome? (fun p => microAt p m)

/-- The host's entry: the instruction a table row's word decodes to. A row of the MOW table has 8 bits, a row of
the OPW table 16. -/
def decodeTableWord (nbits w : Nat) : Option Instr :=
  if nbits ≤ 8 then
    if w < 256 then decodeBareMow (BitVec.ofNat 8 w) else none
  else if w < 65536 then
    match decodeOpw (BitVec.ofNat 16 w) with
    | .ok i => some i
    | .error _ => none
  else none

/-! ## The encoder -/

/-- The head of a level-1 word with `rst = 0`, `enable = 1` (all level-1 rows but RESET and HOLD). -/
def liveOpw (busStarted sclLevel : Bool) (flags : FlagWord) (t : OpwTail) : CodeWord :=
  .opw (packOpw ⟨false, true, busStarted, sclLevel, flags, t⟩)

/-- The encoder, from the match columns of R63 and R64 and the operands' places in R61 and R62. -/
def encode : Instr → CodeWord
  | .reset en bs scl f t => .opw (packOpw ⟨true, en, bs, scl, f, t⟩)
  | .hold bs scl f t => .opw (packOpw ⟨false, false, bs, scl, f, t⟩)
  | .sclf scl f2 f1 f0 t => liveOpw true scl (mkFlags true f2 f1 f0) t
  | .sclfIgn scl f2 f1 f0 t => liveOpw false scl (mkFlags true f2 f1 f0) t
  | .sclr scl f1 f0 t => liveOpw true scl (mkFlags false true f1 f0) t
  | .sclrIgn scl f1 f0 t => liveOpw false scl (mkFlags false true f1 f0) t
  | .start f0 t => liveOpw false true (mkFlags false false true f0) t
  | .rstart f0 t => liveOpw true true (mkFlags false false true f0) t
  | .sdafIgn bs f0 t => liveOpw bs false (mkFlags false false true f0) t
  | .stop t => liveOpw true true (mkFlags false false false true) t
  | .stopIgn t => liveOpw false true (mkFlags false false false true) t
  | .sdarIgn bs t => liveOpw bs false (mkFlags false false false true) t
  | .nop bs scl t => liveOpw bs scl (mkFlags false false false false) t
  | .b0rel r st => .mow .byteStart (packMow r st 0)
  | .b0relRx r => .mow .byteStart (packMow r .receiving 0)
  | .b0txld r => .mow .byteStart (packMow r .transmitting 0)
  | .sampleAddr k => .mow .dataBit (packMow true .addressPhase (BitVec.ofBool false ++ k))
  | .sampleRx k => .mow .dataBit (packMow true .receiving (BitVec.ofBool false ++ k))
  | .txbit k => .mow .dataBit (packMow false .transmitting (BitVec.ofBool false ++ k))
  | .finrx r => .mow .finalise (packMow r .receiving 15)
  | .finaddr r => .mow .finalise (packMow r .addressPhase 15)
  | .ackslot r st => .mow .ackSlot (packMow r st 16)
  | .cntinc r st k => .mow .counter (packMow r st (BitVec.ofBool false ++ k))
  | .cntincAck r st => .mow .counter (packMow r st 16)
  | .cntwrap r st => .mow .counter (packMow r st 17)

end Sys2Proof
end

