-- ==== Sys2Proof/Machine/State.lean ====
section
/-! DEFINITION. The state of the engine (R10 to R30), the reasons a step could stop, and the state after reset
(R28). All fields are plain data. -/

namespace Sys2Proof.Machine

/-- The outputs of one event (R7): the four strobes with their arguments. "Every output not set in a step
has its default value 0" (R6). -/
structure Outputs where
  /-- `addr_match`, R151. -/
  addrMatch : Bool
  /-- `addr_is_read`, valid with `addr_match`, else 0 (R25). -/
  addrIsRead : Bool
  /-- `addr_is_restart`, valid with `addr_match`, else 0 (R25). -/
  addrIsRestart : Bool
  /-- `rx_valid`, R152. -/
  rxValid : Bool
  /-- `rx_data`, valid with `rx_valid`, else 0x00 (R25). -/
  rxData : Byte
  /-- `tx_req`, R153. -/
  txReq : Bool
  /-- `stop_evt`, R154. -/
  stopEvt : Bool
deriving DecidableEq, Repr, Inhabited

/-- All outputs 0 (R6, R90). -/
def Outputs.zero : Outputs :=
  { addrMatch := false, addrIsRead := false, addrIsRestart := false, rxValid := false, rxData := 0,
    txReq := false, stopEvt := false }

/-- The inputs before any event: all 0. The spec gives inputs no reset value (R28); every step overwrites
them at entry before anything reads them (DESIGN CHOICE, log 2). -/
def noInput : EventIn :=
  { rst := false, enable := false, flags := 0, sclLevel := false, sdaLevel := false, busAddr := 0,
    rxAck := false, txData := 0 }

/-- The state: the SlaveDevice record, the six synchroniser bits (R10, R21), then the inputs and outputs of the
event in progress, then the model's own script of stimuli. -/
structure State where
  /-- R13. -/
  protocolState : ProtocolState
  /-- R15. -/
  busStarted : Bool
  /-- R16. -/
  busRestarted : Bool
  /-- R12. -/
  edgeCounter : EdgeIndex
  /-- R14. -/
  needAck : Bool
  /-- R17. -/
  activeByte : Byte
  /-- R18. -/
  pendingTxByte : Byte
  /-- R19: 1 pulls SDA low, 0 leaves it released. -/
  sdaLow : Bool
  /-- R21, R81: first SCL synchroniser stage. -/
  sclMeta : Bool
  /-- R21, R81: second SCL synchroniser stage. -/
  sclSync : Bool
  /-- R21, R81: previous SCL sample. -/
  sclPrev : Bool
  /-- R21, R81: first SDA synchroniser stage. -/
  sdaMeta : Bool
  /-- R21, R81: second SDA synchroniser stage. -/
  sdaSync : Bool
  /-- R21, R81: previous SDA sample. -/
  sdaPrev : Bool
  /-- The event's input record, latched at entry (R178); `inp.busAddr` is the record's `busAddress` (R11). -/
  inp : EventIn
  /-- The outputs of the event (R7, R25). -/
  out : Outputs
  /-- The stimuli still to come, next first (the event script of R68). The model's own, log 3. -/
  script : List Stimulus
  /-- The index of the next free value. The model's own, log 3. -/
  freeIndex : Nat
deriving DecidableEq, Repr

/-- Why a step faults: never. "Nothing is raised" (R170): the engine has no trap, no error state and no error
register, so there is no constructor and nobody raises one. -/
inductive Fault where
deriving DecidableEq, Repr

/-- Why a step is refused. -/
inductive Refusal where
  /-- An instruction with no meaning in the model yet; raised by an arm of exec alone (none is left). Safe. -/
  | notModelled (mnemonic : String)
  /-- The event's operation word is no instruction; raised by the fetch. No state presents such a word, since
  `edgeCounter` is below 18 and the level-1 rows cover every word (R63, R66 item 3). Safe. -/
  | undecodable (e : DecodeError)
deriving DecidableEq, Repr

/-- The outcome of a step of this machine. -/
abbrev Outcome := Host.Outcome State Fault Refusal

/-- The state right after reset (R28), with nothing scripted. -/
def State.reset : State :=
  { protocolState := .idle
    busStarted := false
    busRestarted := false
    edgeCounter := 0
    needAck := false
    activeByte := 0
    pendingTxByte := 0
    sdaLow := false
    sclMeta := true
    sclSync := true
    sclPrev := true
    sdaMeta := true
    sdaSync := true
    sdaPrev := true
    inp := noInput
    out := Outputs.zero
    script := []
    freeIndex := 0 }

end Sys2Proof.Machine
end

