-- ==== Sys2Proof/Machine/Operands.lean ====
section
/-! DEFINITION. Operand assembly (R65), the operation word and the micro-operation word of a state (R61, R62). -/

namespace Sys2Proof.Machine

/-- The received address, `activeByte[7:1]` (R65). -/
def receivedAddress (b : Byte) : BusAddr := b.extractLsb' 1 7

/-- The direction flag isRead, `activeByte[0]` (R65): 1 = the master reads (R46). -/
def directionBit (b : Byte) : Bool := b.getLsbD 0

/-- The transmit bit, bit 7 of `pendingTxByte` before the shift (R65). -/
def transmitBit (b : Byte) : Bool := b.getLsbD 7

/-- `(b << 1)[7:0]`: bit 7 is dropped, bit 0 becomes 0 (R6, R128). -/
def shiftLeft1 (b : Byte) : Byte := b <<< 1

/-- `(b << 1)[7:0] | zext_8(bit)` (R124): the sampled bit enters at bit 0. -/
def shiftIn (b : Byte) (bit : Bool) : Byte := shiftLeft1 b ||| (BitVec.ofBool bit).setWidth 8

/-- The address byte a master sends for address `a` and direction `rw`: `(A << 1) | rw` (R46). -/
def addressByte (a : BusAddr) (rw : Bool) : Byte := a ++ BitVec.ofBool rw

/-- The successor of an index of at most 16 (R129: "`c + 1 <= 17`"). -/
def nextIndex (c : EdgeIndex) : EdgeIndex := Fin.ofNat 18 (c.val + 1)

/-- The index a 4-bit operand of CNTINC's first row stands for (0..15). -/
def indexOf4 (k : BitVec 4) : EdgeIndex := Fin.ofNat 18 k.toNat

/-- `edgeCounter` as the 5-bit register it is (R12, D12). -/
def EdgeIndex.bits (c : EdgeIndex) : BitVec 5 := BitVec.ofNat 5 c.val

/-- OPW[7:0] of a state (R61). -/
def State.opwTail (s : State) : OpwTail :=
  { protocolState := s.protocolState, sdaLevel := s.inp.sdaLevel, edgeCounter := EdgeIndex.bits s.edgeCounter }

/-- The fields of the operation word of a state whose event's inputs are latched (R61: "All fields are read
before the event changes anything"). -/
def State.opwFields (s : State) : OpwFields :=
  { rst := s.inp.rst
    enable := s.inp.enable
    busStarted := s.busStarted
    sclLevel := s.inp.sclLevel
    flags := s.inp.flags
    tail := s.opwTail }

/-- The operation word of a state whose event's inputs are latched (R61). -/
def State.opw (s : State) : Opw := packOpw s.opwFields

/-- The micro-operation word of a SCL step entered from this state (R62). -/
def State.mow (s : State) (rise : Bool) : Mow := packMow rise s.protocolState (EdgeIndex.bits s.edgeCounter)

end Sys2Proof.Machine
end

