-- ==== Sys2Proof/Machine/Flags.lean ====
section
/-! DEFINITION. The flag word F (R60): its bits, and how the edge detector computes it (R82). -/

namespace Sys2Proof.Machine

/-- F[3], SCL went from high to low (R60). -/
def sclFall (f : FlagWord) : Bool := f.getLsbD 3

/-- F[2], SCL went from low to high (R60). -/
def sclRise (f : FlagWord) : Bool := f.getLsbD 2

/-- F[1], SDA went from high to low (R60). -/
def sdaFall (f : FlagWord) : Bool := f.getLsbD 1

/-- F[0], SDA went from low to high (R60). -/
def sdaRise (f : FlagWord) : Bool := f.getLsbD 0

/-- FLAGS (R82): the flag word of a clock cycle, a function of the sample registers of that cycle. -/
def State.detectFlags (s : State) : FlagWord :=
  mkFlags (s.sclPrev && !s.sclSync) (!s.sclPrev && s.sclSync) (s.sdaPrev && !s.sdaSync) (!s.sdaPrev && s.sdaSync)

/-- The level-1 choice as R90 writes it: `rst` first, then `enable`, then the first set flag in the order
SCL_FALL, SCL_RISE, SDA_FALL, SDA_RISE (R91), then that flag's gate (R92, R93). The step decodes the
word by the table of R63 instead; that the two agree is a statement. -/
def dispatchChoice (rst enable busStarted sclLevel : Bool) (f : FlagWord) : Level1Op :=
  if rst then .reset
  else if !enable then .hold
  else if sclFall f then
    if busStarted then .sclf else .sclfIgn
  else if sclRise f then
    if busStarted then .sclr else .sclrIgn
  else if sdaFall f then
    if sclLevel then
      if !busStarted then .start else .rstart
    else .sdafIgn
  else if sdaRise f then
    if sclLevel then
      if busStarted then .stop else .stopIgn
    else .sdarIgn
  else .nop

end Sys2Proof.Machine
end

