-- ==== Sys2Proof/Machine/Ops.lean ====
section
/-! DEFINITION. The shared operations: event entry (R178), the Pin Driver (R160, R161), the application
handshake (R151 to R154), the START handling that START and RSTART share (R110, R111), and what
surrounds an outcome. There is no exception to take and none to return from (R170, R179). -/

namespace Sys2Proof.Machine

/-! ## Event entry -/

/-- The stimulus of the next step: the script's head, or a free value when the script is empty (log 3). -/
def State.nextStimulus (s : State) : Stimulus := s.script.headD (Config.freeStimulus s.freeIndex)

/-- Event entry (R178): the event's input record is latched and all outputs are 0 (R90, first line). The stimulus is
consumed: "no flag outlives its cycle" (R84). No state is saved. -/
def State.enter (s : State) (e : EventIn) : State :=
  { s with inp := e, out := Outputs.zero, script := s.script.tail, freeIndex := s.freeIndex + 1 }

/-! ## Pin Driver -/

/-- `DriveLow()`: `S.sdaLow <- 1` (R160). -/
def State.driveLow (s : State) : State := { s with sdaLow := true }

/-- `ReleaseHigh()`: `S.sdaLow <- 0`, the line is not driven (R161). -/
def State.releaseHigh (s : State) : State := { s with sdaLow := false }

/-! ## Application handshake -/

/-- `AppAddr(isRead, isRestart)` (R151). -/
def State.appAddr (s : State) (isRead isRestart : Bool) : State :=
  { s with out := { s.out with addrMatch := true, addrIsRead := isRead, addrIsRestart := isRestart } }

/-- `AppRx(byte) -> ack` (R152): the byte is presented and the answer of the same event returned. -/
def State.appRx (s : State) (byte : Byte) : Bool × State :=
  (s.inp.rxAck, { s with out := { s.out with rxValid := true, rxData := byte } })

/-- `AppTx() -> byte` (R153): the request is made and the byte of the same event returned. -/
def State.appTx (s : State) : Byte × State :=
  (s.inp.txData, { s with out := { s.out with txReq := true } })

/-- `AppStop()` (R154). -/
def State.appStop (s : State) : State := { s with out := { s.out with stopEvt := true } }

/-! ## START handling -/

/-- The START handling of R110, for every START and repeated START (R111, 90_conflicts.md C5). -/
def State.startHandling (s : State) : State :=
  { s with
    busRestarted := s.busStarted
    edgeCounter := 0
    needAck := false
    activeByte := 0
    busStarted := true
    protocolState := .addressPhase }

/-- Leaving the transaction: Idle, with `busStarted` and `busRestarted` cleared (R112, R143). -/
def State.dropBus (s : State) : State :=
  { s with protocolState := .idle, busStarted := false, busRestarted := false }

/-! ## Outcomes -/

/-- Apply a function to the next state of an outcome. -/
def onNext (f : State → State) : Outcome → Outcome
  | .next s => .next (f s)
  | .fault r => .fault r
  | .refused r => .refused r

/-- Run a meaning on the next state of an outcome. -/
def andThen (o : Outcome) (f : State → Outcome) : Outcome :=
  match o with
  | .next s => f s
  | .fault r => .fault r
  | .refused r => .refused r

/-- The next state of an outcome, if it has one. -/
def nextState? : Outcome → Option State
  | .next s => some s
  | .fault _ => none
  | .refused _ => none

end Sys2Proof.Machine
end

