-- ==== Sys2Proof/Machine/BitEngine.lean ====
section
/-! DEFINITION. The bit-state machine and byte framer: the micro-operations of phases 1, 2 and 5 of a SCL step
(spec/43_bit_engine.md). -/

namespace Sys2Proof.Machine

/-! ## The shared operations -/

/-- B0REL (R121): release SDA and clear `activeByte`. -/
def State.b0rel (s : State) : State := { s.releaseHigh with activeByte := 0 }

/-- B0TXLD (R122): `S.pendingTxByte <- AppTx()`. -/
def State.b0txld (s : State) : State := { s.appTx.2 with pendingTxByte := s.appTx.1 }

/-- SAMPLE (R124): shift left, OR in the SDA level captured with the edge. -/
def State.sample (s : State) : State := { s with activeByte := shiftIn s.activeByte s.inp.sdaLevel }

/-- TXBIT's pin action (R125): a 1 is sent by releasing the line, a 0 by pulling it low. -/
def State.putBit (s : State) (b : Bool) : State := if b then s.releaseHigh else s.driveLow

/-- TXBIT (R125): bit 7 to the pin, then shift left. -/
def State.txbit (s : State) : State :=
  { s.putBit (transmitBit s.pendingTxByte) with pendingTxByte := shiftLeft1 s.pendingTxByte }

/-- CNTINC (R129): `S.edgeCounter <- c + 1`, with `c` "the counter value from before the step". -/
def State.cntinc (s : State) (c : EdgeIndex) : State := { s with edgeCounter := nextIndex c }

/-- CNTWRAP (R130): `S.edgeCounter <- 0`. -/
def State.cntwrap (s : State) : State := { s with edgeCounter := 0 }

/-! ## The meanings -/

/-- B0REL, row of Idle and AddressPhase (R121). -/
def execB0rel (_rise : Bool) (_state : ProtocolState) (s : State) : Outcome := .next s.b0rel

/-- B0REL, row of Receiving (R121). -/
def execB0relRx (_rise : Bool) (s : State) : Outcome := .next s.b0rel

/-- B0TXLD (R122). -/
def execB0txld (_rise : Bool) (s : State) : Outcome := .next s.b0txld

/-- SAMPLE, row of AddressPhase (R124). -/
def execSampleAddr (_index : BitVec 4) (s : State) : Outcome := .next s.sample

/-- SAMPLE, row of Receiving (R124). -/
def execSampleRx (_index : BitVec 4) (s : State) : Outcome := .next s.sample

/-- TXBIT (R125). -/
def execTxbit (_index : BitVec 4) (s : State) : Outcome := .next s.txbit

/-- CNTINC, row of index 0..15 (R129): the operand is `c`. -/
def execCntinc (_rise : Bool) (_state : ProtocolState) (index : BitVec 4) (s : State) : Outcome :=
  .next (s.cntinc (indexOf4 index))

/-- CNTINC, row of index 16 (R129): `c` is 16. -/
def execCntincAck (_rise : Bool) (_state : ProtocolState) (s : State) : Outcome := .next (s.cntinc 16)

/-- CNTWRAP (R130). -/
def execCntwrap (_rise : Bool) (_state : ProtocolState) (s : State) : Outcome := .next s.cntwrap

end Sys2Proof.Machine
end

