-- ==== Sys2Proof/Machine/ByteAck.lean ====
section
/-! DEFINITION. Byte finalisation, address compare and the ACK/NACK generator: phases 3 and 4 of a SCL step
(spec/44_byte_ack.md). -/

namespace Sys2Proof.Machine

/-! ## The shared operations -/

/-- FINRX (R141): `S.needAck <- AppRx(S.activeByte)`. -/
def State.finrx (s : State) : State := { (s.appRx s.activeByte).2 with needAck := (s.appRx s.activeByte).1 }

/-- The compare of R144: equality of two 7-bit values, the direction bit taking no part. -/
def State.addressMatches (s : State) : Bool := receivedAddress s.activeByte == s.inp.busAddr

/-- FINADDR on a match (R142): acknowledge, notify, go to Transmitting or Receiving. -/
def State.addressMatch (s : State) : State :=
  { s.appAddr (directionBit s.activeByte) s.busRestarted with
    needAck := true
    protocolState := if directionBit s.activeByte then .transmitting else .receiving }

/-- FINADDR (R142, R143): on a mismatch "the device drops off the bus silently". -/
def State.finaddr (s : State) : State := if s.addressMatches then s.addressMatch else s.dropBus

/-- ACKSLOT (R145): ACK and clear `needAck`, or release. -/
def State.ackslot (s : State) : State :=
  if s.needAck then { s.driveLow with needAck := false } else s.releaseHigh

/-! ## The meanings -/

/-- FINRX (R141). -/
def execFinrx (_rise : Bool) (s : State) : Outcome := .next s.finrx

/-- FINADDR (R142, R143). -/
def execFinaddr (_rise : Bool) (s : State) : Outcome := .next s.finaddr

/-- ACKSLOT (R145). -/
def execAckslot (_rise : Bool) (_state : ProtocolState) (s : State) : Outcome := .next s.ackslot

end Sys2Proof.Machine
end

