-- ==== Sys2Proof/Machine/SclStep.lean ====
section
/-! DEFINITION. The SCL step as R120 writes it: five phases, all keyed on the counter and state from before the
step. -/

namespace Sys2Proof.Machine

/-- Phase 1: byte start, at index 0 (R121, R122). -/
def byteStartPhase (c : EdgeIndex) (st : ProtocolState) (s : State) : State :=
  if c.val = 0 then (if st ≠ .transmitting then s.b0rel else s.b0txld) else s

/-- Phase 2: the data-bit window, index 0..15 (R123): rising edges belong to the receiver, falling edges to the
transmitter. -/
def dataBitPhase (c : EdgeIndex) (st : ProtocolState) (rise : Bool) (s : State) : State :=
  if c.val ≤ 15 then
    if rise = true ∧ (st = .addressPhase ∨ st = .receiving) then s.sample
    else if rise = false ∧ st = .transmitting then s.txbit
    else s
  else s

/-- Phase 3: byte finalisation, at index 15 (R140, R147). -/
def finalisePhase (c : EdgeIndex) (st : ProtocolState) (s : State) : State :=
  if c.val = 15 then
    if st = .receiving then s.finrx
    else if st = .addressPhase then s.finaddr
    else s
  else s

/-- Phase 4: the ACK slot, at index 16 (R145). -/
def ackPhase (c : EdgeIndex) (s : State) : State := if c.val = 16 then s.ackslot else s

/-- Phase 5: the counter (R129, R130). -/
def counterPhase (c : EdgeIndex) (s : State) : State := if c.val = 17 then s.cntwrap else s.cntinc c

/-- `SclStep(S, in, rise)` (R120): `c` and `st` "are taken once, before anything is written". -/
def sclStep (rise : Bool) (s : State) : State :=
  counterPhase s.edgeCounter
    (ackPhase s.edgeCounter
      (finalisePhase s.edgeCounter s.protocolState
        (dataBitPhase s.edgeCounter s.protocolState rise
          (byteStartPhase s.edgeCounter s.protocolState s))))

end Sys2Proof.Machine
end

