-- ==== Sys2Proof/Machine/BusEdge.lean ====
section
/-! DEFINITION. The Bus Edge Interpreter's operations that enter the bit-state machine, and those that change nothing
(spec/41_dispatch.md). -/

namespace Sys2Proof.Machine

/-- SCLF (R102): `SclStep(S, in, rise = 0)`. -/
def execSclf (_sclLevel _sclRise _sdaFall _sdaRise : Bool) (_tail : OpwTail) (s : State) : Outcome :=
  .next (sclStep false s)

/-- SCLR (R103): `SclStep(S, in, rise = 1)`. -/
def execSclr (_sclLevel _sdaFall _sdaRise : Bool) (_tail : OpwTail) (s : State) : Outcome :=
  .next (sclStep true s)

/-- A no-effect operation (R66 item 1): every register as it was, no strobe. -/
def State.noEffect (s : State) : State := s

/-- HOLD (R95): "the state is frozen as it stands". -/
def execHold (_busStarted _sclLevel : Bool) (_flags : FlagWord) (_tail : OpwTail) (s : State) : Outcome :=
  .next s.noEffect

/-- SCLF.IGN (R98). -/
def execSclfIgn (_sclLevel _sclRise _sdaFall _sdaRise : Bool) (_tail : OpwTail) (s : State) : Outcome :=
  .next s.noEffect

/-- SCLR.IGN (R100). -/
def execSclrIgn (_sclLevel _sdaFall _sdaRise : Bool) (_tail : OpwTail) (s : State) : Outcome :=
  .next s.noEffect

/-- SDAF.IGN (R99). -/
def execSdafIgn (_busStarted _sdaRise : Bool) (_tail : OpwTail) (s : State) : Outcome := .next s.noEffect

/-- SDAR.IGN (R101). -/
def execSdarIgn (_busStarted : Bool) (_tail : OpwTail) (s : State) : Outcome := .next s.noEffect

/-- NOP (R94). -/
def execNop (_busStarted _sclLevel : Bool) (_tail : OpwTail) (s : State) : Outcome := .next s.noEffect

end Sys2Proof.Machine
end

