-- ==== Sys2Proof/Machine/ResetOp.lean ====
section
/-! DEFINITION. The RESET operation (R190). -/

namespace Sys2Proof.Machine

/-- Every register at the value of R190, the six synchroniser registers among them, and all outputs 0. The latched
inputs and the script are no registers of the block (R29) and stay. -/
def State.resetRegisters (s : State) : State :=
  { s with
    protocolState := .idle
    busStarted := false
    busRestarted := false
    edgeCounter := 0
    needAck := false
    activeByte := 0
    pendingTxByte := 0
    sdaLow := false
    sclMeta := true
    sclSync := true
    sclPrev := true
    sdaMeta := true
    sdaSync := true
    sdaPrev := true
    out := Outputs.zero }

/-- RESET (R190). -/
def execReset (_enable _busStarted _sclLevel : Bool) (_flags : FlagWord) (_tail : OpwTail) (s : State) : Outcome :=
  .next s.resetRegisters

end Sys2Proof.Machine
end

