-- ==== Sys2Proof/Machine/StartStop.lean ====
section
/-! DEFINITION. The START/STOP recognizer's operations (spec/42_start_stop.md). -/

namespace Sys2Proof.Machine

/-- START (R110). -/
def execStart (_sdaRise : Bool) (_tail : OpwTail) (s : State) : Outcome := .next s.startHandling

/-- RSTART (R111): "Operands, pseudocode, state written, strobes: identical to START". -/
def execRstart (_sdaRise : Bool) (_tail : OpwTail) (s : State) : Outcome := .next s.startHandling

/-- STOP (R112). -/
def execStop (_tail : OpwTail) (s : State) : Outcome := .next s.dropBus.appStop

/-- STOP.IGN (R113): "Nothing is written and no strobe is issued." -/
def execStopIgn (_tail : OpwTail) (s : State) : Outcome := .next s

end Sys2Proof.Machine
end

