-- ==== Sys2Proof/Machine/Dispatch.lean ====
section
/-! DEFINITION. One arm per instruction. -/

namespace Sys2Proof.Machine

def exec (i : Instr) (s : State) : Host.Outcome State Fault Refusal :=
  match i with
  | .reset en bs scl f t => Sys2Proof.Machine.execReset en bs scl f t s
  | .hold bs scl f t => Sys2Proof.Machine.execHold bs scl f t s
  | .sclf scl f2 f1 f0 t => Sys2Proof.Machine.execSclf scl f2 f1 f0 t s
  | .sclfIgn scl f2 f1 f0 t => Sys2Proof.Machine.execSclfIgn scl f2 f1 f0 t s
  | .sclr scl f1 f0 t => Sys2Proof.Machine.execSclr scl f1 f0 t s
  | .sclrIgn scl f1 f0 t => Sys2Proof.Machine.execSclrIgn scl f1 f0 t s
  | .start f0 t => Sys2Proof.Machine.execStart f0 t s
  | .rstart f0 t => Sys2Proof.Machine.execRstart f0 t s
  | .sdafIgn bs f0 t => Sys2Proof.Machine.execSdafIgn bs f0 t s
  | .stop t => Sys2Proof.Machine.execStop t s
  | .stopIgn t => Sys2Proof.Machine.execStopIgn t s
  | .sdarIgn bs t => Sys2Proof.Machine.execSdarIgn bs t s
  | .nop bs scl t => Sys2Proof.Machine.execNop bs scl t s
  | .b0rel r st => Sys2Proof.Machine.execB0rel r st s
  | .b0relRx r => Sys2Proof.Machine.execB0relRx r s
  | .b0txld r => Sys2Proof.Machine.execB0txld r s
  | .sampleAddr k => Sys2Proof.Machine.execSampleAddr k s
  | .sampleRx k => Sys2Proof.Machine.execSampleRx k s
  | .txbit k => Sys2Proof.Machine.execTxbit k s
  | .finrx r => Sys2Proof.Machine.execFinrx r s
  | .finaddr r => Sys2Proof.Machine.execFinaddr r s
  | .ackslot r st => Sys2Proof.Machine.execAckslot r st s
  | .cntinc r st k => Sys2Proof.Machine.execCntinc r st k s
  | .cntincAck r st => Sys2Proof.Machine.execCntincAck r st s
  | .cntwrap r st => Sys2Proof.Machine.execCntwrap r st s

end Sys2Proof.Machine
end

