-- ==== Sys2Proof/Machine/EdgeDetector.lean ====
section
/-! DEFINITION. The SCL/SDA edge detector at the cycle level (spec/40_edge_detector.md): SYNC, LEVELS, and the pin
levels of the optional wired-AND bus (R53). FLAGS is in Machine/Flags.lean. -/

namespace Sys2Proof.Machine

/-- `sample(p)` (R81, R86): the level of the pin at the clock edge, or the draw where it is changing. -/
def samplePin (draw : Bool) : Pin → Bool
  | .low => false
  | .high => true
  | .changing => draw

/-- The sample of SCL at the clock edge that ends the cycle of `s`. -/
def State.sampleScl (s : State) (c : CycleIn) : Bool := samplePin (Config.sclDraw s.freeIndex) c.sclPin

/-- The sample of SDA at the clock edge that ends the cycle of `s`. -/
def State.sampleSda (s : State) (c : CycleIn) : Bool := samplePin (Config.sdaDraw s.freeIndex) c.sdaPin

/-- SYNC (R81): "All six assignments use the values from before the clock edge". -/
def State.sync (s : State) (scl sda : Bool) : State :=
  { s with
    sclPrev := s.sclSync, sclSync := s.sclMeta, sclMeta := scl
    sdaPrev := s.sdaSync, sdaSync := s.sdaMeta, sdaMeta := sda }

/-- The event of a clock cycle: the flags of R82 and the levels of R83, with the ports of the same cycle (R25). -/
def State.cycleEvent (s : State) (c : CycleIn) : EventIn :=
  { rst := c.rst
    enable := c.enable
    flags := s.detectFlags
    sclLevel := s.sclSync
    sdaLevel := s.sdaSync
    busAddr := c.busAddr
    rxAck := c.rxAck
    txData := c.txData }

/-- The SDA line of the wired-AND bus with no pad delay (R53): low when the master or the engine pulls it low
(PRESUMED, log 9). -/
def busSda (engineLow : Bool) (master : Pin) : Pin := if engineLow then .low else master

/-- The ports of a cycle on the wired-AND bus, from the master's SDA output (R53). -/
def State.onBus (s : State) (c : CycleIn) : CycleIn := { c with sdaPin := busSda s.sdaLow c.sdaPin }

end Sys2Proof.Machine
end

