-- ==== Sys2Proof/Machine/Run.lean ====
section
/-! DEFINITION. One event and one clock cycle, and how a table word is placed where the next step takes it. -/

namespace Sys2Proof.Machine

/-- Run the event whose inputs are latched: decode its operation word (R61, R63) and execute it. -/
def runLatched (s : State) : Outcome :=
  match decodeOpw s.opw with
  | .ok i => exec i s
  | .error e => .refused (.undecodable e)

/-- The event of a stimulus: given (event level), or made by the edge detector (cycle level) (R4). -/
def State.eventOf (s : State) : Stimulus → EventIn
  | .event e => e
  | .cycle c => s.cycleEvent c
  | .busCycle c => s.cycleEvent (s.onBus c)

/-- The state at entry to the next event (R178). -/
def State.latched (s : State) : State := s.enter (s.eventOf s.nextStimulus)

/-- The clock edge that ends a cycle: with `rst = 0` the synchronisers take their samples, whatever `enable` is
(R81, R85); with `rst = 1` RESET has set them to 1. `pre` is the state in the cycle. -/
def clockEdge (pre : State) (c : CycleIn) (post : State) : State :=
  if c.rst then post else post.sync (pre.sampleScl c) (pre.sampleSda c)

/-- What follows the operation: nothing at the event level; at the cycle level the clock edge, at which all
registers of the step are updated together (R6, R45). -/
def finishStep (pre : State) (post : State) : Stimulus → State
  | .event _ => post
  | .cycle c => clockEdge pre c post
  | .busCycle c => clockEdge pre (pre.onBus c) post

/-- One step (R90): entry, the operation of the event, the clock edge where there is one. -/
def runStep (s : State) : Outcome :=
  onNext (fun t => finishStep s t s.nextStimulus) (runLatched s.latched)

/-- The index of a word, where a state can hold it; else the counter stays as it is. -/
def placedIndex (old : EdgeIndex) (b : BitVec 5) : EdgeIndex := if h : b.toNat < 18 then ⟨b.toNat, h⟩ else old

/-- Put an event with this operation word next: its state fields into the registers, its input fields into a
stimulus at the script's head. The application's answers are those last latched. -/
def State.placeOpw (s : State) (f : OpwFields) : State :=
  { s with
    busStarted := f.busStarted
    protocolState := f.tail.protocolState
    edgeCounter := placedIndex s.edgeCounter f.tail.edgeCounter
    script := .event
      { rst := f.rst, enable := f.enable, flags := f.flags, sclLevel := f.sclLevel, sdaLevel := f.tail.sdaLevel,
        busAddr := s.inp.busAddr, rxAck := s.inp.rxAck, txData := s.inp.txData } :: s.script }

/-- Put the SCL step whose micro-operation word is `m` next: a micro-operation is performed only inside a SCL
step (R64, R120), so this is the event that performs it, with every other row that matches `m` (log 4). -/
def State.placeMow (s : State) (m : Mow) : State :=
  s.placeOpw
    { rst := false, enable := true, busStarted := true, sclLevel := mowRise m,
      flags := mkFlags (!mowRise m) (mowRise m) false false,
      tail := { protocolState := mowState m, sdaLevel := s.inp.sdaLevel, edgeCounter := mowIndex m } }

/-- A table word placed: 8 bits of a MOW row, 16 of an OPW row. -/
def State.placeTableWord (s : State) (nbits w : Nat) : State :=
  if nbits ≤ 8 then s.placeMow (BitVec.ofNat 8 w) else s.placeOpw (unpackOpw (BitVec.ofNat 16 w))

end Sys2Proof.Machine
end

