-- ==== Sys2Proof/Machine/Step.lean ====
section
/-! DEFINITION. The step: one event, or one clock cycle, on the next stimulus. -/

namespace Sys2Proof.Machine

/-- One step (R90): "One step per event"; at the cycle level "one step is performed in every clock cycle". -/
def step (s : State) : Host.Outcome State Fault Refusal := runStep s

/-- The state with a table word where `step` takes its next event (log 4, log 7). -/
def State.withFetchWord (s : State) (nbits w : Nat) : State := s.placeTableWord nbits w

end Sys2Proof.Machine
end

