-- ==== Sys2Proof/Machine/Ports.lean ====
section
/-! DEFINITION. The output ports of the block (R25): the strobes are `out`; `sda_low_o` and the `dbg_*` group are views
of registers, and no port writes one (R30). -/

namespace Sys2Proof.Machine

/-- `sda_low_o`: "the register `sdaLow` itself" (R162). -/
def State.sdaLowO (s : State) : Bool := s.sdaLow

/-- `dbg_state`, 2 bits (R25). -/
def State.dbgState (s : State) : BitVec 2 := s.protocolState.code

/-- `dbg_bus_started` (R25). -/
def State.dbgBusStarted (s : State) : Bool := s.busStarted

/-- `dbg_bus_restarted` (R25). -/
def State.dbgBusRestarted (s : State) : Bool := s.busRestarted

/-- `dbg_edge_counter`, 5 bits (R25). -/
def State.dbgEdgeCounter (s : State) : BitVec 5 := EdgeIndex.bits s.edgeCounter

/-- The level of the SDA line when the master's output is `master` (R53: low if any party drives it low). -/
def State.sdaLine (s : State) (master : Bool) : Bool := master && !s.sdaLow

end Sys2Proof.Machine
end

