-- ==== Sys2Proof/Machine/Script.lean ====
section
/-! DEFINITION. The event-script notation (R68) and its macros (R69): the engine's assembly language. -/

namespace Sys2Proof.Machine

/-- A script token, one per event (R68). Tokens the table leaves a choice in carry it as an operand. -/
inductive Token where
  /-- `S`: SDA fell while SCL high. -/
  | s
  /-- `P`: SDA rose while SCL high. -/
  | p
  /-- `F`: SCL fell, with the current SDA level. -/
  | f (sda : Bool)
  /-- `R0`, `R1`: SCL rose with SDA at this level. -/
  | r (sda : Bool)
  /-- `D-`: SDA fell while SCL low. -/
  | dMinus
  /-- `D+`: SDA rose while SCL low. -/
  | dPlus
  /-- `N`: no edge, at the current levels. -/
  | n (scl sda : Bool)
  /-- `H`: an event with `enable = 0`. -/
  | h (flags : FlagWord) (scl sda : Bool)
  /-- `X`: an event with `rst = 1`. -/
  | x (enable : Bool) (flags : FlagWord) (scl sda : Bool)
deriving DecidableEq, Repr

/-- What the integrator and the application present in an event (R7). -/
structure Answers where
  busAddr : BusAddr
  rxAck : Bool
  txData : Byte
deriving DecidableEq, Repr

/-- An event with these inputs. -/
def mkEvent (a : Answers) (rst enable : Bool) (flags : FlagWord) (scl sda : Bool) : EventIn :=
  { rst := rst, enable := enable, flags := flags, sclLevel := scl, sdaLevel := sda,
    busAddr := a.busAddr, rxAck := a.rxAck, txData := a.txData }

/-- The event of a token: the columns F, sclLevel and sdaLevel of R68, with `rst = 0` and `enable = 1`
"unless the token says otherwise". -/
def Token.event (a : Answers) : Token → EventIn
  | .s => mkEvent a false true 0b0010 true false
  | .p => mkEvent a false true 0b0001 true true
  | .f sda => mkEvent a false true 0b1000 false sda
  | .r sda => mkEvent a false true 0b0100 true sda
  | .dMinus => mkEvent a false true 0b0010 false false
  | .dPlus => mkEvent a false true 0b0001 false true
  | .n scl sda => mkEvent a false true 0b0000 scl sda
  | .h flags scl sda => mkEvent a false false flags scl sda
  | .x enable flags scl sda => mkEvent a true enable flags scl sda

/-- The event of an SDA change while SCL is low, from level `l` to level `v`: "Events in square brackets occur only when
the bus level actually changes" (R69). -/
def sdaChange (l v : Bool) : List Token :=
  if l = v then [] else [if v then Token.dPlus else Token.dMinus]

/-- The SDA levels of the bus in one SCL-low phase, which SDA can change twice in: the engine changes its output in the
`F` event, and the master changes its own after that. -/
structure LowPhase where
  /-- The level once the engine's change has come back (`D+ echo`, `D- echo`). -/
  echo : Bool
  /-- The level once the master has changed its output too: that of the phase's `R`. -/
  level : Bool
deriving DecidableEq, Repr

/-- A phase with at most one change, whoever makes it. -/
def LowPhase.once (level : Bool) : LowPhase := { echo := level, level := level }

/-- The SDA changes of the SCL-low phase `p` from level `l`: the engine's echo, then the master's change. R69 writes one
bracket for the phase; that it stands for both events, the echo first, is read from 96_program_traces.md, P1 events
24 to 27 (`F`, `D+ echo`, `D-`, `R0`) and 68 to 71, P2 events 48 to 51 (DEDUCED, log 17). -/
def settle (l : Bool) (p : LowPhase) : List Token := sdaChange l p.echo ++ sdaChange p.echo p.level

/-- One clock per SCL-low phase: `F`, the SDA changes, `R` (R69); `l` is the SDA level before. -/
def clocks : Bool → List LowPhase → List Token
  | _, [] => []
  | l, p :: ps => Token.f l :: (settle l p ++ Token.r p.level :: clocks p.level ps)

/-- The bits of a byte as they stand on the wire, most significant first (R41). -/
def wireBits (v : Byte) : List Bool :=
  [v.getLsbD 7, v.getLsbD 6, v.getLsbD 5, v.getLsbD 4, v.getLsbD 3, v.getLsbD 2, v.getLsbD 1, v.getLsbD 0]

/-- `START`: `S` (R69). -/
def macroStart : List Token := [.s]

/-- `RESTART`: `F [D+] R1 S` (R69). In this and the macros below `l` is the SDA level before, and an `echo` the level
once the engine's change has come back, one per clock. -/
def macroRestart (l echo : Bool) : List Token := clocks l [⟨echo, true⟩] ++ [.s]

/-- The nine clocks of a byte macro: the bits of `v`, then level `ninth`. -/
def byteClocks (l : Bool) (echoes : Vector Bool 9) (v : Byte) (ninth : Bool) : List Token :=
  clocks l (List.zipWith LowPhase.mk echoes.toList (wireBits v ++ [ninth]))

/-- `WBYTE(v)`: eight data clocks and the ACK clock at level `a` (R69). -/
def wbyte (l : Bool) (echoes : Vector Bool 9) (v : Byte) (a : Bool) : List Token := byteClocks l echoes v a

/-- `RBYTE(m)`: eight clocks with the levels `t` the engine drives, and the master's answer `m` (R69). -/
def rbyte (l : Bool) (echoes : Vector Bool 9) (t : Byte) (m : Bool) : List Token := byteClocks l echoes t m

/-- `STOPSEQ`: `F [D-] R0 P` (R69). -/
def stopSeq (l echo : Bool) : List Token := clocks l [⟨echo, false⟩] ++ [.p]

/-- `ADDR(A, rw)`: `WBYTE(2*A + rw)` (R69). -/
def addrByte (l : Bool) (echoes : Vector Bool 9) (addr : BusAddr) (rw a : Bool) : List Token :=
  wbyte l echoes (addressByte addr rw) a

/-- A script as stimuli, each event with its answers. -/
def stimuli (a : Answers) (ts : List Token) : List Stimulus := ts.map (fun t => .event (t.event a))

end Sys2Proof.Machine
end

