-- ==== Sys2Proof/Safety.lean ====
section
/-! DEFINITION. The terms claims are stated in: invariants (R26, R27), who may write what (R10, R164), what an
observer sees (R115, R191), and the environment's conditions (R195). -/

namespace Sys2Proof.Machine

/-! ## Invariants -/

/-- R27 items 1 to 4: Idle exactly when no transaction is open, a restart only in an open one, the index at most
17, and `needAck` only before the ACK slot. -/
structure State.Inv (s : State) : Prop where
  idleIff : s.protocolState = .idle ↔ s.busStarted = false
  restartedOpen : s.busRestarted = true → s.busStarted = true
  indexRange : s.edgeCounter.val ≤ 17
  needAckAt16 : s.needAck = true → s.edgeCounter.val = 16

/-- While the engine listens, its pin is released: in an address frame from index 1 on, and in a received frame from
index 1 to 16 (R143: `sdaLow` "is 0 because B0REL released it at index 0 of this frame"; R121). The address
state ends at index 15 (R13). -/
structure State.QuietInv (s : State) : Prop where
  addressIndex : s.protocolState = .addressPhase → s.edgeCounter.val ≤ 15
  addressQuiet : s.protocolState = .addressPhase → 1 ≤ s.edgeCounter.val → s.sdaLow = false
  receiveQuiet : s.protocolState = .receiving → 1 ≤ s.edgeCounter.val → s.edgeCounter.val ≤ 16 → s.sdaLow = false

/-- The cycle level's alignment (R27 item 5): in an open transaction the index is even exactly when the last SCL
level the engine has handled is high. -/
def State.Aligned (s : State) : Prop := s.busStarted = true → (s.edgeCounter.val % 2 = 0 ↔ s.sclPrev = true)

/-! ## What a step does -/

/-- The level-1 operation of the next step. -/
def State.nextOp (s : State) : Option Level1Op := level1Op s.latched.opw

/-- The next stimulus is not the wired-AND bus of R53, so the pins do not depend on the engine. -/
def State.openPins (s : State) : Prop :=
  match s.nextStimulus with
  | .event _ => True
  | .cycle _ => True
  | .busCycle _ => False

/-- The next step is a SCL step (R120): SCLF or SCLR. -/
def State.nextIsSclStep (s : State) : Prop := s.nextOp = some .sclf ∨ s.nextOp = some .sclr

/-- What `activeByte` holds when a SCL step at index 15 finalises it: in SCLR after the sample, in SCLF without one
(R140, R141). -/
def State.finalByte (s : State) : Byte :=
  if s.nextOp = some .sclr then shiftIn s.activeByte s.latched.inp.sdaLevel else s.activeByte

/-- Run instructions one after another. -/
def runMicro (is : List Instr) (s : State) : Outcome := is.foldl (fun o i => andThen o (exec i)) (.next s)

/-- The registers and fields of State, as names. -/
inductive Field where
  | protocolState | busStarted | busRestarted | edgeCounter | needAck | activeByte | pendingTxByte | sdaLow
  | synchronisers | outputs | surroundings
deriving DecidableEq, Repr

/-- Two states agree on a field; `surroundings` is the latched inputs, the script and the free index. -/
def State.agree (s t : State) : Field → Prop
  | .protocolState => s.protocolState = t.protocolState
  | .busStarted => s.busStarted = t.busStarted
  | .busRestarted => s.busRestarted = t.busRestarted
  | .edgeCounter => s.edgeCounter = t.edgeCounter
  | .needAck => s.needAck = t.needAck
  | .activeByte => s.activeByte = t.activeByte
  | .pendingTxByte => s.pendingTxByte = t.pendingTxByte
  | .sdaLow => s.sdaLow = t.sdaLow
  | .synchronisers =>
    s.sclMeta = t.sclMeta ∧ s.sclSync = t.sclSync ∧ s.sclPrev = t.sclPrev ∧
    s.sdaMeta = t.sdaMeta ∧ s.sdaSync = t.sdaSync ∧ s.sdaPrev = t.sdaPrev
  | .outputs => s.out = t.out
  | .surroundings => s.inp = t.inp ∧ s.script = t.script ∧ s.freeIndex = t.freeIndex

/-- The fields an instruction may write: the "State written" lines of its rule and the "written by" column of R10.
A SCL step writes what its micro-operations write. -/
def mayWrite : Instr → List Field
  | .reset _ _ _ _ _ =>
    [.protocolState, .busStarted, .busRestarted, .edgeCounter, .needAck, .activeByte, .pendingTxByte, .sdaLow,
      .synchronisers, .outputs]
  | .hold _ _ _ _ => []
  | .sclf _ _ _ _ _ =>
    [.protocolState, .busStarted, .busRestarted, .edgeCounter, .needAck, .activeByte, .pendingTxByte, .sdaLow,
      .outputs]
  | .sclfIgn _ _ _ _ _ => []
  | .sclr _ _ _ _ =>
    [.protocolState, .busStarted, .busRestarted, .edgeCounter, .needAck, .activeByte, .pendingTxByte, .sdaLow,
      .outputs]
  | .sclrIgn _ _ _ _ => []
  | .start _ _ => [.busRestarted, .edgeCounter, .needAck, .activeByte, .busStarted, .protocolState]
  | .rstart _ _ => [.busRestarted, .edgeCounter, .needAck, .activeByte, .busStarted, .protocolState]
  | .sdafIgn _ _ _ => []
  | .stop _ => [.protocolState, .busStarted, .busRestarted, .outputs]
  | .stopIgn _ => []
  | .sdarIgn _ _ => []
  | .nop _ _ _ => []
  | .b0rel _ _ => [.sdaLow, .activeByte]
  | .b0relRx _ => [.sdaLow, .activeByte]
  | .b0txld _ => [.pendingTxByte, .outputs]
  | .sampleAddr _ => [.activeByte]
  | .sampleRx _ => [.activeByte]
  | .txbit _ => [.sdaLow, .pendingTxByte]
  | .finrx _ => [.needAck, .outputs]
  | .finaddr _ => [.needAck, .protocolState, .busStarted, .busRestarted, .outputs]
  | .ackslot _ _ => [.sdaLow, .needAck]
  | .cntinc _ _ _ => [.edgeCounter]
  | .cntincAck _ _ => [.edgeCounter]
  | .cntwrap _ _ => [.edgeCounter]

/-- How many strobes are 1 (R155). -/
def Outputs.strobes (o : Outputs) : Nat := o.addrMatch.toNat + o.rxValid.toNat + o.txReq.toNat + o.stopEvt.toNat

/-! ## What an observer sees -/

/-- Two states that no later strobe and no later `sdaLow` of an address frame past index 0 can tell apart (R115 (c),
R191): the registers that a START or B0TXLD rewrites before they are read may differ while they are dead. -/
structure State.SameFuture (s t : State) : Prop where
  protocolState : s.protocolState = t.protocolState
  busStarted : s.busStarted = t.busStarted
  busRestarted : s.busRestarted = t.busRestarted
  sync : s.agree t .synchronisers
  script : s.script = t.script
  freeIndex : s.freeIndex = t.freeIndex
  frame : s.busStarted = true →
    s.edgeCounter = t.edgeCounter ∧ s.needAck = t.needAck ∧ s.activeByte = t.activeByte
  shifting : s.busStarted = true → s.protocolState = .transmitting → 1 ≤ s.edgeCounter.val →
    s.edgeCounter.val ≤ 15 → s.pendingTxByte = t.pendingTxByte
  pin : s.busStarted = true → ¬ (s.protocolState = .addressPhase ∧ s.edgeCounter.val = 0) → s.sdaLow = t.sdaLow

/-- A state with other data: these data registers and this sampled SDA level, all else as it was (R97). -/
def State.withData (s : State) (active pending : Byte) (sda : Bool) : State :=
  { s with activeByte := active, pendingTxByte := pending, inp := { s.inp with sdaLevel := sda } }

/-- A state with its latched inputs put to 0: what a step leaves apart from the record it was given. -/
def State.withoutInputs (s : State) : State := { s with inp := noInput }

/-- A state whose next stimulus is this event. -/
def State.given (s : State) (e : EventIn) : State := { s with script := .event e :: s.script }

/-! ## The environment -/

/-- The flag of a word that is acted on (R91), alone. -/
def topFlag (f : FlagWord) : FlagWord :=
  if sclFall f then 0b1000 else if sclRise f then 0b0100 else if sdaFall f then 0b0010 else
    if sdaRise f then 0b0001 else 0b0000

/-- The cycle of the next stimulus, at the cycle level. -/
def State.nextCycle? (s : State) : Option CycleIn :=
  match s.nextStimulus with
  | .event _ => none
  | .cycle c => some c
  | .busCycle c => some (s.onBus c)

/-- Tokens of whole SCL clocks, falling then rising, each with an SDA level (R42, properly alternating edges). -/
def sclClocks (levels : List (Bool × Bool)) : List Token := levels.flatMap (fun p => [Token.f p.1, Token.r p.2])

/-- One SCL clock, falling then rising, whose two events each present their own SDA level and answers (R7, R201). -/
structure SclClock where
  fallSda : Bool
  fallAnswers : Answers
  riseSda : Bool
  riseAnswers : Answers
deriving DecidableEq, Repr

/-- The two events of a clock. -/
def SclClock.events (c : SclClock) : List Stimulus :=
  [.event ((Token.f c.fallSda).event c.fallAnswers), .event ((Token.r c.riseSda).event c.riseAnswers)]

/-- The least length of a SCL low phase in clock periods, with the pad delay `d/T` rounded up (R195, first
condition). `CLK_PER_SCL_PHASE_MIN` (R5, D31) is the integrator's and is at least this. -/
def sclLowFloor (padDelay : Nat) : Nat := 4 + max 1 padDelay

/-- Every run of equal samples that is followed by a change is at least `n` long; `k` samples of level `l` came
before. The condition named `CLK_PER_SCL_PHASE_MIN = n` on a list of SCL samples (R5, R195). -/
def phasesAtLeast (n : Nat) : Nat → Bool → List Bool → Bool
  | _, _, [] => true
  | k, l, x :: xs => if x = l then phasesAtLeast n (k + 1) l xs else decide (n ≤ k) && phasesAtLeast n 1 x xs

/-- A list of SCL samples, one per clock, with every complete phase at least `n` long. -/
def sclPhasesAtLeast (n : Nat) : List Bool → Bool
  | [] => true
  | x :: xs => phasesAtLeast n 1 x xs

end Sys2Proof.Machine
end

