-- ==== Sys2Proof/Certificates/Slice0/Obligations.lean ====
section
/-! DEFINITION. The statements for the provers. Each docstring names the rule of spec/ it formalises. Statements about
the result of an instruction are equations, so they say what it leaves unchanged as well. -/

open Sys2Proof Sys2Proof.Machine

/-! ## The step -/

/-- R63 ("Exactly one level-1 operation is performed per event"), R90: the event's operation word always decodes, to a
well-formed instruction whose operands are that word's, and the step is its meaning on the latched state,
followed at the cycle level by the clock edge. -/
def Obligations.StepRunsDecodedInstruction : Prop :=
  ∀ s : State, ∃ i : Instr,
    decode (.opw s.latched.opw) = .ok i ∧ i.wellFormed = true ∧ encode i = .opw s.latched.opw ∧
    step s = onNext (fun t => finishStep s t s.nextStimulus) (exec i s.latched)

/-- R178, R82, R83: entry latches the event's input record (at the cycle level the flags and levels of that cycle
with the ports of the same cycle), clears the outputs and changes no register. On the optional bus of R53 the ports are
those of the cycle with SDA low where the engine pulls it low (no pad delay: PRESUMED, log 9). The script, which it
consumes, and `freeIndex` are the model's (log 3). -/
def Obligations.EntryLatchesTheStimulus : Prop :=
  ∀ (s : State) (rest : List Stimulus),
    let entered (e : EventIn) : State :=
      { s with inp := e, out := Outputs.zero, script := rest, freeIndex := s.freeIndex + 1 }
    let record (c : CycleIn) : EventIn :=
      { rst := c.rst, enable := c.enable,
        flags := mkFlags (s.sclPrev && !s.sclSync) (!s.sclPrev && s.sclSync)
                         (s.sdaPrev && !s.sdaSync) (!s.sdaPrev && s.sdaSync),
        sclLevel := s.sclSync, sdaLevel := s.sdaSync,
        busAddr := c.busAddr, rxAck := c.rxAck, txData := c.txData }
    (∀ e, s.script = .event e :: rest → s.latched = entered e) ∧
    (∀ c, s.script = .cycle c :: rest → s.latched = entered (record c)) ∧
    (∀ c, s.script = .busCycle c :: rest → s.latched = entered (record (s.onBus c)) ∧
      s.onBus c = { c with sdaPin := if s.sdaLow then .low else c.sdaPin })

/-- R170: "for every state and every input it yields a next state and an output, and there is no input on which the
engine halts, traps, locks up or enters an error state". -/
def Obligations.StepAlwaysAnswersNext : Prop := ∀ s : State, ∃ t : State, step s = .next t

/-! ## Encoding -/

/-- Words written out from R61 to R64 and the examples of the rules decode to their instructions. -/
def Obligations.SpecWordsDecode : Prop :=
  decode (.opw 0x744F) = .ok (.sclr true false false ⟨.addressPhase, false, 15⟩) ∧
  decode (.opw 0x68C2) = .ok (.sclf false false false false ⟨.transmitting, false, 2⟩) ∧
  decode (.opw 0x2842) = .ok (.hold true false 0b1000 ⟨.addressPhase, false, 2⟩) ∧
  decode (.opw 0xE8C5) = .ok (.reset true true false 0b1000 ⟨.transmitting, false, 5⟩) ∧
  decode (.opw 0x5200) = .ok (.start false ⟨.idle, false, 0⟩) ∧
  decode (.opw 0x7282) = .ok (.rstart false ⟨.receiving, false, 2⟩) ∧
  decode (.opw 0x71A2) = .ok (.stop ⟨.receiving, true, 2⟩) ∧
  decode (.opw 0x6291) = .ok (.sdafIgn true false ⟨.receiving, false, 17⟩) ∧
  decode (.opw 0x681F) = .error .unreachableIndex ∧
  decode (.mow .byteStart 0xE0) = .ok (.b0txld true) ∧
  decode (.mow .dataBit 0xA3) = .ok (.sampleAddr 3) ∧
  decode (.mow .finalise 0xCF) = .ok (.finrx true) ∧
  decode (.mow .ackSlot 0x70) = .ok (.ackslot false .transmitting) ∧
  decode (.mow .counter 0x6E) = .ok (.cntinc false .transmitting 14) ∧
  decode (.mow .counter 0x12) = .error .noRow

/-- R61 to R64: decoding the encoding of a well-formed instruction gives it back, with every operand. -/
def Obligations.DecodeEncodeAgree : Prop := ∀ i : Instr, i.wellFormed = true → decode (encode i) = .ok i

/-- R61 to R64: a word that decodes is the encoding of what it decodes to, and that is well formed: no word is read as
another's instruction. -/
def Obligations.EncodeDecodeAgree : Prop :=
  ∀ (w : CodeWord) (i : Instr), decode w = .ok i → encode i = w ∧ i.wellFormed = true

/-- R63: "every value matches exactly one row", and that row's operation is the one selected. -/
def Obligations.EveryWordSelectsOneRow : Prop :=
  ∀ w : Opw, ∃ r ∈ opwRows, opwRows.filter (fun q => (w &&& q.mask) == q.value) = [r] ∧ level1Op w = some r.op

/-- R64: "at most one row matches per phase"; and no row matches an index of 18 to 31 (R66 item 3). -/
def Obligations.OneRowPerPhase : Prop :=
  ∀ m : Mow,
    (∀ p : Phase, (mowRows.filter (fun r => decide (r.phase = p) && (m &&& r.mask) == r.value)).length ≤ 1) ∧
    (18 ≤ (mowIndex m).toNat → mowRows.filter (fun r => (m &&& r.mask) == r.value) = [])

/-- R91: the table selects the first set flag in the order SCL_FALL, SCL_RISE, SDA_FALL, SDA_RISE, looking at the flag
bits alone, with `rst` and `enable` before them; a closed gate gives that flag's no-effect operation and
no lower flag is looked at. -/
def Obligations.TableFollowsPriority : Prop :=
  ∀ f : OpwFields,
    level1Op (packOpw f) = some (
      if f.rst then .reset
      else if !f.enable then .hold
      else if f.flags.getLsbD 3 then (if f.busStarted then .sclf else .sclfIgn)
      else if f.flags.getLsbD 2 then (if f.busStarted then .sclr else .sclrIgn)
      else if f.flags.getLsbD 1 then
        (if f.sclLevel then (if f.busStarted then .rstart else .start) else .sdafIgn)
      else if f.flags.getLsbD 0 then
        (if f.sclLevel then (if f.busStarted then .stop else .stopIgn) else .sdarIgn)
      else .nop)

/-- R96: "Flags in `F` other than the selected one are discarded": an event with several flags leaves what the event
with the selected flag alone leaves, but for the latched record. -/
def Obligations.LosingFlagsAreDiscarded : Prop :=
  ∀ (s : State) (e : EventIn), ∃ t u : State,
    step (s.given e) = .next t ∧ step (s.given { e with flags := topFlag e.flags }) = .next u ∧
    t.withoutInputs = u.withoutInputs

/-- R67, cell by cell: the micro-operation rows that match in a SCL step. -/
def Obligations.FlattenedTable : Prop :=
  ∀ (rise : Bool) (st : ProtocolState) (c : EdgeIndex),
    (mowRows.filter (·.hits (packMow rise st (EdgeIndex.bits c)))).map (·.op) =
      if c.val = 0 then
        match rise, st with
        | _, .idle => [.b0rel, .cntinc]
        | false, .addressPhase => [.b0rel, .cntinc]
        | false, .receiving => [.b0relRx, .cntinc]
        | false, .transmitting => [.b0txld, .txbit, .cntinc]
        | true, .addressPhase => [.b0rel, .sampleAddr, .cntinc]
        | true, .receiving => [.b0relRx, .sampleRx, .cntinc]
        | true, .transmitting => [.b0txld, .cntinc]
      else if c.val ≤ 14 then
        match rise, st with
        | false, .transmitting => [.txbit, .cntinc]
        | true, .addressPhase => [.sampleAddr, .cntinc]
        | true, .receiving => [.sampleRx, .cntinc]
        | _, _ => [.cntinc]
      else if c.val = 15 then
        match rise, st with
        | _, .idle => [.cntinc]
        | false, .addressPhase => [.finaddr, .cntinc]
        | false, .receiving => [.finrx, .cntinc]
        | false, .transmitting => [.txbit, .cntinc]
        | true, .addressPhase => [.sampleAddr, .finaddr, .cntinc]
        | true, .receiving => [.sampleRx, .finrx, .cntinc]
        | true, .transmitting => [.cntinc]
      else if c.val = 16 then [.ackslot, .cntincAck]
      else [.cntwrap]

/-- R68: the flag word, SCL level and SDA level of each token's event, with `rst = 0` and `enable = 1` unless the token
says otherwise. -/
def Obligations.ScriptTokenEvents : Prop :=
  ∀ (a : Answers) (x y en : Bool) (fl : FlagWord),
    (fun e : EventIn => (e.rst, e.enable, e.flags, e.sclLevel, e.sdaLevel)) (Token.s.event a) =
      (false, true, 0b0010, true, false) ∧
    (fun e : EventIn => (e.rst, e.enable, e.flags, e.sclLevel, e.sdaLevel)) (Token.p.event a) =
      (false, true, 0b0001, true, true) ∧
    (fun e : EventIn => (e.rst, e.enable, e.flags, e.sclLevel, e.sdaLevel)) ((Token.f x).event a) =
      (false, true, 0b1000, false, x) ∧
    (fun e : EventIn => (e.rst, e.enable, e.flags, e.sclLevel, e.sdaLevel)) ((Token.r x).event a) =
      (false, true, 0b0100, true, x) ∧
    (fun e : EventIn => (e.rst, e.enable, e.flags, e.sclLevel, e.sdaLevel)) (Token.dMinus.event a) =
      (false, true, 0b0010, false, false) ∧
    (fun e : EventIn => (e.rst, e.enable, e.flags, e.sclLevel, e.sdaLevel)) (Token.dPlus.event a) =
      (false, true, 0b0001, false, true) ∧
    (fun e : EventIn => (e.rst, e.enable, e.flags, e.sclLevel, e.sdaLevel)) ((Token.n x y).event a) =
      (false, true, 0b0000, x, y) ∧
    ((Token.h fl x y).event a).rst = false ∧ ((Token.h fl x y).event a).enable = false ∧
    ((Token.x en fl x y).event a).rst = true

/-- R61, R62 (the model's way to place a word, log 4, log 7): a placed word that a state can present is the one the
next step decodes; a placed MOW is that of the SCL step the next step performs. -/
def Obligations.PlacedWordIsFetched : Prop :=
  (∀ (s : State) (w : Opw) (i : Instr), decode (.opw w) = .ok i → (unpackOpw w).tail.indexOk = true →
    (s.withFetchWord 16 w.toNat).latched.opw = w) ∧
  (∀ (s : State) (m : Mow) (i : Instr), decodeTableWord 8 m.toNat = some i →
    (s.withFetchWord 8 m.toNat).latched.mow (mowRise m) = m ∧
    (s.withFetchWord 8 m.toNat).nextOp = some (if mowRise m then .sclr else .sclf) ∧
    i ∈ microOps m)

/-! ## Results of the level-1 operations -/

/-- R190: RESET, "whatever else is in the operation word": every register, and all outputs 0. The latched inputs and the
script are no registers. -/
def Obligations.ResetResult : Prop :=
  (∀ w : Opw, w &&& 0x8000 = 0x8000 → level1Op w = some .reset) ∧
  (∀ (en bs scl : Bool) (f : FlagWord) (t : OpwTail) (s : State),
    exec (.reset en bs scl f t) s = .next
      { s with protocolState := .idle, busStarted := false, busRestarted := false, edgeCounter := 0,
               needAck := false, activeByte := 0, pendingTxByte := 0, sdaLow := false,
               sclMeta := true, sclSync := true, sclPrev := true,
               sdaMeta := true, sdaSync := true, sdaPrev := true, out := Outputs.zero })

/-- R28: the value of every register after reset. -/
def Obligations.ResetStateValues : Prop :=
  State.reset.protocolState = .idle ∧ State.reset.busStarted = false ∧ State.reset.busRestarted = false ∧
  State.reset.edgeCounter = 0 ∧ State.reset.needAck = false ∧ State.reset.activeByte = 0x00 ∧
  State.reset.pendingTxByte = 0x00 ∧ State.reset.sdaLow = false ∧
  State.reset.sclMeta = true ∧ State.reset.sclSync = true ∧ State.reset.sclPrev = true ∧
  State.reset.sdaMeta = true ∧ State.reset.sdaSync = true ∧ State.reset.sdaPrev = true ∧
  State.reset.out = Outputs.zero

/-- R95: HOLD, selected by `rst = 0`, `enable = 0` "whatever `F` is", freezes the state: nothing is written and no
notification is issued, also when a step takes it from an event, which then is lost: every register is as it was. -/
def Obligations.HoldFreezes : Prop :=
  (∀ w : Opw, w &&& 0xC000 = 0x0000 → level1Op w = some .hold) ∧
  (∀ (bs scl : Bool) (f : FlagWord) (t : OpwTail) (s : State), exec (.hold bs scl f t) s = .next s) ∧
  (∀ (s : State) (e : EventIn), e.rst = false → e.enable = false →
    ∃ t, step (s.given e) = .next t ∧ t.out = Outputs.zero ∧
      ∀ f : Field, f ≠ .outputs → f ≠ .surroundings → s.agree t f)

/-- R94, R98, R99, R100, R101, R113: the no-effect operations, their encodings, and that each leaves everything as it
was and sets no strobe. -/
def Obligations.NoEffectResults : Prop :=
  (∀ w : Opw,
    (w &&& 0xCF00 = 0x4000 → level1Op w = some .nop) ∧ (w &&& 0xE800 = 0x4800 → level1Op w = some .sclfIgn) ∧
    (w &&& 0xEC00 = 0x4400 → level1Op w = some .sclrIgn) ∧ (w &&& 0xDE00 = 0x4200 → level1Op w = some .sdafIgn) ∧
    (w &&& 0xDF00 = 0x4100 → level1Op w = some .sdarIgn) ∧ (w &&& 0xFF00 = 0x5100 → level1Op w = some .stopIgn)) ∧
  (∀ (a b c d : Bool) (t : OpwTail) (s : State),
    exec (.nop a b t) s = .next s ∧ exec (.sclfIgn a b c d t) s = .next s ∧ exec (.sclrIgn a b c t) s = .next s ∧
    exec (.sdafIgn a b t) s = .next s ∧ exec (.sdarIgn a t) s = .next s ∧ exec (.stopIgn t) s = .next s)

/-- R110: START writes exactly six fields; `busRestarted` takes the old `busStarted`, which is 0 where START is
selected; no strobe, and neither `pendingTxByte` nor `sdaLow` is written. -/
def Obligations.StartResult : Prop :=
  (∀ w : Opw, w &&& 0xFE00 = 0x5200 → level1Op w = some .start ∧ (unpackOpw w).busStarted = false) ∧
  (∀ (f0 : Bool) (t : OpwTail) (s : State),
    exec (.start f0 t) s = .next
      { s with busRestarted := s.busStarted, edgeCounter := 0, needAck := false, activeByte := 0,
               busStarted := true, protocolState := .addressPhase })

/-- R111: RSTART, "identical to START"; where it is selected `busStarted` is 1, so `busRestarted` becomes 1. -/
def Obligations.RstartResult : Prop :=
  (∀ w : Opw, w &&& 0xFE00 = 0x7200 → level1Op w = some .rstart ∧ (unpackOpw w).busStarted = true) ∧
  (∀ (f0 : Bool) (t : OpwTail) (s : State),
    exec (.rstart f0 t) s = .next
      { s with busRestarted := s.busStarted, edgeCounter := 0, needAck := false, activeByte := 0,
               busStarted := true, protocolState := .addressPhase })

/-- R112: STOP writes three fields and issues the stop notification; `edgeCounter`, `needAck`, `activeByte`,
`pendingTxByte` and `sdaLow` keep what they hold. -/
def Obligations.StopResult : Prop :=
  (∀ w : Opw, w &&& 0xFF00 = 0x7100 → level1Op w = some .stop) ∧
  (∀ (t : OpwTail) (s : State),
    exec (.stop t) s = .next
      { s with protocolState := .idle, busStarted := false, busRestarted := false,
               out := { s.out with stopEvt := true } })

/-- R102, R103: the words of SCLF and SCLR; both complete, and do what every micro-operation whose row matches MOW does,
in phase order, each seeing what the ones before it wrote (R64): so the step of R120, five phases on the index and
state from before it, is the table of R64. -/
def Obligations.SclStepRunsMatchingRows : Prop :=
  (∀ w : Opw, (w &&& 0xE800 = 0x6800 → level1Op w = some .sclf) ∧ (w &&& 0xEC00 = 0x6400 → level1Op w = some .sclr)) ∧
  ∀ (a b c d : Bool) (tl : OpwTail) (s : State),
    (∃ t, exec (.sclf a b c d tl) s = .next t ∧ t = sclStep false s ∧
      runMicro (microOps (s.mow false)) s = .next t) ∧
    (∃ t, exec (.sclr a b c tl) s = .next t ∧ t = sclStep true s ∧
      runMicro (microOps (s.mow true)) s = .next t)

/-! ## Results of the micro-operations -/

/-- R121: B0REL, both rows. -/
def Obligations.B0relResult : Prop :=
  (∀ m : Mow, (m &&& 0x5F = 0x00 → microAt .byteStart m = some (.b0rel (mowRise m) (mowState m))) ∧
    (m &&& 0x7F = 0x40 → microAt .byteStart m = some (.b0relRx (mowRise m)))) ∧
  (∀ (r : Bool) (st : ProtocolState) (s : State),
    exec (.b0rel r st) s = .next { s with sdaLow := false, activeByte := 0x00 } ∧
    exec (.b0relRx r) s = .next { s with sdaLow := false, activeByte := 0x00 })

/-- R122, R153: B0TXLD takes the application's byte of the same event and issues `txReq`; the pin is not written. -/
def Obligations.B0txldResult : Prop :=
  (∀ m : Mow, m &&& 0x7F = 0x60 → microAt .byteStart m = some (.b0txld (mowRise m))) ∧
  (∀ (r : Bool) (s : State),
    exec (.b0txld r) s = .next { s with pendingTxByte := s.inp.txData, out := { s.out with txReq := true } })

/-- R124: SAMPLE, both rows: shift left inside 8 bits, the sampled level at bit 0. -/
def Obligations.SampleResult : Prop :=
  (∀ m : Mow, (m &&& 0xF0 = 0xA0 → microAt .dataBit m = some (.sampleAddr (m.extractLsb' 0 4))) ∧
    (m &&& 0xF0 = 0xC0 → microAt .dataBit m = some (.sampleRx (m.extractLsb' 0 4)))) ∧
  (∀ (k : BitVec 4) (s : State),
    exec (.sampleAddr k) s =
      .next { s with activeByte := (s.activeByte <<< 1) ||| (if s.inp.sdaLevel then 1 else 0) } ∧
    exec (.sampleRx k) s =
      .next { s with activeByte := (s.activeByte <<< 1) ||| (if s.inp.sdaLevel then 1 else 0) })

/-- R125: TXBIT: a 1 releases the line, a 0 pulls it low; then the register shifts left. -/
def Obligations.TxbitResult : Prop :=
  (∀ m : Mow, m &&& 0xF0 = 0x60 → microAt .dataBit m = some (.txbit (m.extractLsb' 0 4))) ∧
  (∀ (k : BitVec 4) (s : State),
    exec (.txbit k) s =
      .next { s with sdaLow := !s.pendingTxByte.getLsbD 7, pendingTxByte := s.pendingTxByte <<< 1 })

/-- R141, R152: FINRX hands over `activeByte` and takes the application's answer as `needAck`. -/
def Obligations.FinrxResult : Prop :=
  (∀ m : Mow, m &&& 0x7F = 0x4F → microAt .finalise m = some (.finrx (mowRise m))) ∧
  (∀ (r : Bool) (s : State),
    exec (.finrx r) s =
      .next { s with needAck := s.inp.rxAck, out := { s.out with rxValid := true, rxData := s.activeByte } })

/-- R142: FINADDR where `activeByte[7:1]` equals `busAddr`. -/
def Obligations.FinaddrMatchResult : Prop :=
  (∀ m : Mow, m &&& 0x7F = 0x2F → microAt .finalise m = some (.finaddr (mowRise m))) ∧
  (∀ (r : Bool) (s : State), s.activeByte.extractLsb' 1 7 = s.inp.busAddr →
    exec (.finaddr r) s =
      .next { s with needAck := true
                     protocolState := if s.activeByte.getLsbD 0 then .transmitting else .receiving
                     out := { s.out with addrMatch := true, addrIsRead := s.activeByte.getLsbD 0,
                                         addrIsRestart := s.busRestarted } })

/-- R143: FINADDR where the address differs: Idle, no strobe, and neither `needAck` nor `sdaLow` is written. -/
def Obligations.FinaddrMismatchResult : Prop :=
  ∀ (r : Bool) (s : State), s.activeByte.extractLsb' 1 7 ≠ s.inp.busAddr →
    exec (.finaddr r) s =
      .next { s with protocolState := .idle, busStarted := false, busRestarted := false }

/-- R145: ACKSLOT: with `needAck` pull SDA low and clear `needAck`, else release. -/
def Obligations.AckslotResult : Prop :=
  (∀ m : Mow, m &&& 0x1F = 0x10 → microAt .ackSlot m = some (.ackslot (mowRise m) (mowState m))) ∧
  (∀ (r : Bool) (st : ProtocolState) (s : State),
    (s.needAck = true → exec (.ackslot r st) s = .next { s with sdaLow := true, needAck := false }) ∧
    (s.needAck = false → exec (.ackslot r st) s = .next { s with sdaLow := false }))

/-- R129: CNTINC, both rows: `c + 1`, where `c` is the index in the word. -/
def Obligations.CntincResult : Prop :=
  (∀ m : Mow,
    (m &&& 0x10 = 0x00 → microAt .counter m = some (.cntinc (mowRise m) (mowState m) (m.extractLsb' 0 4))) ∧
    (m &&& 0x1F = 0x10 → microAt .counter m = some (.cntincAck (mowRise m) (mowState m)))) ∧
  (∀ (r : Bool) (st : ProtocolState) (k : BitVec 4) (s : State),
    (∃ n : EdgeIndex, n.val = k.toNat + 1 ∧ exec (.cntinc r st k) s = .next { s with edgeCounter := n }) ∧
    exec (.cntincAck r st) s = .next { s with edgeCounter := 17 })

/-- R130: CNTWRAP. -/
def Obligations.CntwrapResult : Prop :=
  (∀ m : Mow, m &&& 0x1F = 0x11 → microAt .counter m = some (.cntwrap (mowRise m) (mowState m))) ∧
  (∀ (r : Bool) (st : ProtocolState) (s : State), exec (.cntwrap r st) s = .next { s with edgeCounter := 0 })

/-! ## Frames and writers -/

/-- R164: the writers of `sdaLow` with the value each gives it: RESET and B0REL 0, TXBIT the complement of the bit,
ACKSLOT `needAck`; every other operation leaves it. SCLF and SCLR write it where one of these runs inside
them: B0REL at index 0, TXBIT on a falling edge in Transmitting up to index 15, ACKSLOT at index 16. -/
def Obligations.SdaLowWriters : Prop :=
  ∀ (i : Instr) (s t : State), exec i s = .next t →
    match i with
    | .reset _ _ _ _ _ => t.sdaLow = false
    | .b0rel _ _ => t.sdaLow = false
    | .b0relRx _ => t.sdaLow = false
    | .txbit _ => t.sdaLow = !s.pendingTxByte.getLsbD 7
    | .ackslot _ _ => t.sdaLow = s.needAck
    | .sclf _ _ _ _ _ =>
      t.sdaLow =
        if s.edgeCounter.val ≤ 15 ∧ s.protocolState = .transmitting then
          !(if s.edgeCounter.val = 0 then s.inp.txData else s.pendingTxByte).getLsbD 7
        else if s.edgeCounter.val = 0 then false
        else if s.edgeCounter.val = 16 then s.needAck
        else s.sdaLow
    | .sclr _ _ _ _ =>
      t.sdaLow =
        if s.edgeCounter.val = 0 ∧ s.protocolState ≠ .transmitting then false
        else if s.edgeCounter.val = 16 then s.needAck
        else s.sdaLow
    | _ => t.sdaLow = s.sdaLow

/-- R10 ("written by") and the "State written" lines of the operation rules: an instruction changes no field but those
it may write; no instruction changes the latched inputs or the script. -/
def Obligations.FrameByInstruction : Prop :=
  ∀ (i : Instr) (s t : State) (f : Field), exec i s = .next t → f ∉ mayWrite i → s.agree t f

/-! ## Notifications -/

/-- R151 to R154: each strobe is issued by its operation and by nothing else, with its arguments, which are 0 without
it. -/
def Obligations.StrobesComeFromTheirCauses : Prop :=
  ∀ s t : State, step s = .next t →
    (t.out.stopEvt = true ↔ s.nextOp = some .stop) ∧
    (t.out.txReq = true ↔ s.nextIsSclStep ∧ s.edgeCounter.val = 0 ∧ s.protocolState = .transmitting) ∧
    (t.out.rxValid = true ↔ s.nextIsSclStep ∧ s.edgeCounter.val = 15 ∧ s.protocolState = .receiving) ∧
    (t.out.addrMatch = true ↔ s.nextIsSclStep ∧ s.edgeCounter.val = 15 ∧ s.protocolState = .addressPhase ∧
      receivedAddress s.finalByte = s.latched.inp.busAddr) ∧
    t.out.rxData = (if t.out.rxValid then s.finalByte else 0x00) ∧
    t.out.addrIsRead = (t.out.addrMatch && directionBit s.finalByte) ∧
    t.out.addrIsRestart = (t.out.addrMatch && s.busRestarted)

/-- R155: "At most one strobe is 1 in any event", and "All strobes are 0 in RESET, HOLD and every no-effect
operation". -/
def Obligations.AtMostOneStrobe : Prop :=
  ∀ s t : State, step s = .next t →
    t.out.strobes ≤ 1 ∧
    (s.nextOp ∈ [some .reset, some .hold, some .nop, some .sclfIgn, some .sclrIgn, some .sdafIgn, some .sdarIgn,
      some .stopIgn] → t.out = Outputs.zero)

/-! ## Invariants -/

/-- R27 items 1 to 4: "Each holds in every state reachable from reset by any sequence of events, whatever the
inputs": the step keeps them. -/
def Obligations.InvariantKept : Prop := ∀ s t : State, s.Inv → step s = .next t → t.Inv

/-- The invariants hold at reset (R28). -/
def Obligations.InvariantsAtReset : Prop := State.reset.Inv ∧ State.reset.QuietInv ∧ State.reset.Aligned

/-- R143, R121: while the engine listens (an address frame from index 1, a received frame at index 1 to 16) its pin is
released, and an address frame ends at index 15; the step keeps this. -/
def Obligations.QuietWhileListening : Prop := ∀ s t : State, s.QuietInv → step s = .next t → t.QuietInv

/-- R27 item 5, cycle level: with `enable = 1` (or a reset) the index stays even exactly when the SCL level last handled
is high. -/
def Obligations.AlignmentKept : Prop :=
  ∀ (s t : State) (c : CycleIn), s.nextCycle? = some c → (c.enable = true ∨ c.rst = true) → s.Aligned →
    step s = .next t → t.Aligned

/-- R27 items 5 and 6: at the cycle level "even indices are processed on falling edges and odd indices on rising edges",
and "The SCL step is never applied in `Idle`". -/
def Obligations.SclStepsAlternate : Prop :=
  (∀ (s : State) (c : CycleIn), s.nextCycle? = some c → s.Aligned →
    (s.nextOp = some .sclf → s.edgeCounter.val % 2 = 0) ∧ (s.nextOp = some .sclr → s.edgeCounter.val % 2 = 1)) ∧
  (∀ s : State, s.Inv → s.nextIsSclStep → s.protocolState ≠ .idle)

/-- R13, "Transitions, complete list". -/
def Obligations.StateTransitionsComplete : Prop :=
  ∀ s t : State, step s = .next t → t.protocolState ≠ s.protocolState →
    (t.protocolState = .addressPhase ∧ (s.nextOp = some .start ∨ s.nextOp = some .rstart)) ∨
    (s.protocolState = .addressPhase ∧ s.nextIsSclStep ∧ s.edgeCounter.val = 15 ∧
      ((receivedAddress s.finalByte = s.latched.inp.busAddr ∧
          t.protocolState = if directionBit s.finalByte then .transmitting else .receiving) ∨
       (receivedAddress s.finalByte ≠ s.latched.inp.busAddr ∧ t.protocolState = .idle))) ∨
    (t.protocolState = .idle ∧ s.nextOp = some .stop ∧ s.busStarted = true) ∨
    (t.protocolState = .idle ∧ s.nextOp = some .reset)

/-- R131: nothing but a START, a STOP or a reset leaves Transmitting or Receiving: no NACK of the master and no refusal
by the application does. -/
def Obligations.DataStatesPersist : Prop :=
  ∀ s t : State, step s = .next t → (s.protocolState = .transmitting ∨ s.protocolState = .receiving) →
    s.nextOp ∉ [some .start, some .rstart, some .stop, some .reset] → t.protocolState = s.protocolState

/-- R43, R172: from any state, desynchronised or not, an event that is a START puts the engine at index 0 of an address
frame, with `needAck` and `activeByte` cleared. (`freeIndex` is the model's own counter, log 3.) -/
def Obligations.StartRealigns : Prop :=
  ∀ (s : State) (e : EventIn), e.rst = false → e.enable = true → sclFall e.flags = false →
    sclRise e.flags = false → sdaFall e.flags = true → e.sclLevel = true →
    step (s.given e) = .next
      { s with busRestarted := s.busStarted, edgeCounter := 0, needAck := false, activeByte := 0,
               busStarted := true, protocolState := .addressPhase,
               inp := e, out := Outputs.zero, freeIndex := s.freeIndex + 1 }

/-! ## What an operation reads -/

/-- R201: `rx_ack` is read in the event in which `rx_valid = 1` and `tx_data` in that in which `tx_req = 1`, "and at no
other time": where the strobe is not issued, another answer changes nothing. -/
def Obligations.AnswersReadOnlyInTheirEvent : Prop :=
  ∀ (s t : State) (e : EventIn), step (s.given e) = .next t →
    (t.out.rxValid = false → ∀ a : Bool, ∃ u, step (s.given { e with rxAck := a }) = .next u ∧
      u.withoutInputs = t.withoutInputs) ∧
    (t.out.txReq = false → ∀ b : Byte, ∃ u, step (s.given { e with txData := b }) = .next u ∧
      u.withoutInputs = t.withoutInputs)

/-- R205: "The engine reads `bus_addr` in FINADDR only": outside a SCL step at index 15 of an address frame, another
value changes nothing; in it, the value of that event is compared. -/
def Obligations.BusAddressReadOnlyInCompare : Prop :=
  ∀ (s t : State) (e : EventIn), step (s.given e) = .next t →
    (¬ ((s.given e).nextIsSclStep ∧ s.edgeCounter.val = 15 ∧ s.protocolState = .addressPhase) →
      ∀ a : BusAddr, ∃ u, step (s.given { e with busAddr := a }) = .next u ∧ u.withoutInputs = t.withoutInputs) ∧
    ((s.given e).nextIsSclStep → s.edgeCounter.val = 15 → s.protocolState = .addressPhase →
      (t.protocolState ≠ .idle ↔ receivedAddress (s.given e).finalByte = e.busAddr))

/-- R124, R127, R206: while Transmitting the engine reads back nothing: the SDA level of a SCL event, the master's
acknowledge at index 17 among them, changes nothing. -/
def Obligations.NoReadbackWhileTransmitting : Prop :=
  ∀ (s t : State) (e : EventIn), s.protocolState = .transmitting → (sclFall e.flags || sclRise e.flags) = true →
    step (s.given e) = .next t → ∀ b : Bool, ∃ u, step (s.given { e with sdaLevel := b }) = .next u ∧
      u.withoutInputs = t.withoutInputs

/-- R97: SDA edges are never treated as data: "No operation selected by an SDA flag reads `in.sdaLevel`, `activeByte` or
`pendingTxByte`, and none writes `sdaLow`." A word whose SDA flag is selected selects one of six operations; START and
RSTART put 0 into `activeByte` (R110), the other four leave it, all six leave `pendingTxByte`; and with other data the
same operation leaves the same state with that data. -/
def Obligations.SdaEventsCarryNoData : Prop :=
  (∀ w : Opw, w &&& 0xCC00 = 0x4000 → w &&& 0x0300 ≠ 0x0000 →
    level1Op w ∈ [some .start, some .rstart, some .sdafIgn, some .stop, some .stopIgn, some .sdarIgn]) ∧
  ∀ (i : Instr) (s t : State), exec i s = .next t →
    ((match i with | .start _ _ => True | .rstart _ _ => True | _ => False) →
      t.sdaLow = s.sdaLow ∧ t.activeByte = 0 ∧ t.pendingTxByte = s.pendingTxByte ∧
      ∀ (x y : Byte) (b : Bool), exec i (s.withData x y b) = .next (t.withData 0 y b)) ∧
    ((match i with
      | .sdafIgn _ _ _ => True | .stop _ => True | .stopIgn _ => True | .sdarIgn _ _ => True
      | _ => False) →
      t.sdaLow = s.sdaLow ∧ t.activeByte = s.activeByte ∧ t.pendingTxByte = s.pendingTxByte ∧
      ∀ (x y : Byte) (b : Bool), exec i (s.withData x y b) = .next (t.withData x y b))

/-! ## History -/

/-- R191, R115 (c): what a START or B0TXLD rewrites before it is read has no influence: two states that differ in such
registers alone issue the same strobes for the same stimulus, and stay such. -/
def Obligations.HistoryIndependence : Prop :=
  ∀ s t : State, s.SameFuture t → s.openPins →
    ∃ s' t', step s = .next s' ∧ step t = .next t' ∧ s'.SameFuture t' ∧ s'.out = t'.out

/-- R191: after a STOP or an address mismatch the protocol registers carry no history that matters: two Idle states of
the machine with the same synchronisers and surroundings have the same future. -/
def Obligations.IdleStatesShareTheirFuture : Prop :=
  ∀ s t : State, s.Inv → t.Inv → s.protocolState = .idle → t.protocolState = .idle → s.agree t .synchronisers →
    s.script = t.script → s.freeIndex = t.freeIndex → s.SameFuture t

/-! ## Byte frames -/

/-- R41, R42, R141, R152: eight clocks with the bits of `v`, most significant first, in a received frame hand the
application exactly `v`, once, at index 15, and its answer becomes `needAck`, whatever SDA does while SCL is low. -/
def Obligations.ReceiveFrame : Prop :=
  ∀ (s : State) (a : Answers) (l : Bool) (v : Byte) (phases : List LowPhase) (rest : List Stimulus),
    s.busStarted = true → s.protocolState = .receiving → s.edgeCounter = 0 →
    phases.map (·.level) = wireBits v → s.script = stimuli a (clocks l phases) ++ rest →
    ∃ t, core.run (clocks l phases).length s = .next t ∧
      t.out.rxValid = true ∧ t.out.rxData = v ∧ t.needAck = a.rxAck ∧ t.edgeCounter = 16 ∧
      t.protocolState = .receiving ∧ t.busStarted = true ∧ t.sdaLow = false ∧ t.script = rest ∧
      (∀ k < (clocks l phases).length, ∀ u, core.run k s = .next u → 0 < k → u.out.rxValid = false)

/-- R46, R142, R143: the address byte of `addr` and `rw` in an address frame: with `addr` the slave address the match is
notified with `isRead = rw` and the state is Transmitting or Receiving; with another, Idle and no strobe; whatever SDA
does while SCL is low. -/
def Obligations.AddressFrame : Prop :=
  ∀ (s : State) (a : Answers) (l rw : Bool) (addr : BusAddr) (phases : List LowPhase) (rest : List Stimulus),
    s.busStarted = true → s.protocolState = .addressPhase → s.edgeCounter = 0 →
    phases.map (·.level) = wireBits (addressByte addr rw) → s.script = stimuli a (clocks l phases) ++ rest →
    ∃ t, core.run (clocks l phases).length s = .next t ∧
      t.edgeCounter = 16 ∧ t.sdaLow = false ∧ t.script = rest ∧
      (addr = a.busAddr →
        t.out.addrMatch = true ∧ t.out.addrIsRead = rw ∧ t.out.addrIsRestart = s.busRestarted ∧ t.needAck = true ∧
        t.protocolState = (if rw then .transmitting else .receiving) ∧ t.busStarted = true) ∧
      (addr ≠ a.busAddr →
        t.out = Outputs.zero ∧ t.needAck = s.needAck ∧ t.protocolState = .idle ∧ t.busStarted = false ∧
        t.busRestarted = false)

/-- R41, R122, R125: in a transmitted frame, whose sixteen events each carry a `tx_data` of their own, the k-th falling
edge puts bit `7 - k` of the byte the application gave in the event of index 0 on SDA (a 1 released, a 0 low), the byte
is asked for in that event alone, and after the eight clocks the register is 0x00. -/
def Obligations.TransmitFrame : Prop :=
  ∀ (s : State) (first : SclClock) (others : List SclClock) (rest : List Stimulus),
    s.busStarted = true → s.protocolState = .transmitting → s.edgeCounter = 0 → others.length = 7 →
    s.script = (first :: others).flatMap SclClock.events ++ rest →
    (∀ k < 8, ∃ t, core.run (2 * k + 1) s = .next t ∧ t.sdaLow = !first.fallAnswers.txData.getLsbD (7 - k)) ∧
    (∀ n < 16, ∃ t, core.run (n + 1) s = .next t ∧ t.out.txReq = decide (n = 0)) ∧
    ∃ t, core.run 16 s = .next t ∧ t.pendingTxByte = 0x00 ∧ t.edgeCounter = 16 ∧
      t.protocolState = .transmitting ∧ t.needAck = s.needAck ∧ t.script = rest

/-- R146: "low = acknowledge, released-high = not-acknowledge": at the index-16 edge after a received byte SDA is pulled
low exactly when the application answered 1, and after a matched address always. -/
def Obligations.AckFidelity : Prop :=
  ∀ (s : State) (e f : EventIn) (rest : List Stimulus),
    s.busStarted = true → s.edgeCounter = 15 → s.script = .event e :: .event f :: rest →
    e.rst = false → e.enable = true → (sclFall e.flags || sclRise e.flags) = true →
    f.rst = false → f.enable = true → (sclFall f.flags || sclRise f.flags) = true →
    (s.protocolState = .receiving →
      ∃ t, core.run 2 s = .next t ∧ t.sdaLow = e.rxAck ∧ t.needAck = false ∧ t.edgeCounter = 17) ∧
    (s.protocolState = .addressPhase → receivedAddress s.finalByte = e.busAddr →
      ∃ t, core.run 2 s = .next t ∧ t.sdaLow = true ∧ t.needAck = false ∧ t.edgeCounter = 17)

/-- R198: in Transmitting the falling edge of index 0 fetches one more byte and puts its bit 7 on SDA; whatever the byte,
eight more clocks' falling edges later, at index 16, SDA is released. -/
def Obligations.ExtraByteReleasesAtIndex16 : Prop :=
  ∀ (s : State) (a : Answers) (levels : List (Bool × Bool)) (x : Bool) (rest : List Stimulus),
    s.busStarted = true → s.protocolState = .transmitting → s.edgeCounter = 0 → s.needAck = false →
    levels.length = 8 → s.script = stimuli a (sclClocks levels ++ [.f x]) ++ rest →
    (∃ t, core.run 1 s = .next t ∧ t.out.txReq = true ∧ t.sdaLow = !a.txData.getLsbD 7 ∧
      t.pendingTxByte = a.txData <<< 1) ∧
    ∃ t, core.run 17 s = .next t ∧ t.sdaLow = false ∧ t.edgeCounter = 17

/-! ## The cycle level -/

/-- R82: the four flags, never both of one line; and between cycles the previous sample carries the level of the last
flag, so that "successive SCL flags alternate between SCL_FALL and SCL_RISE, and likewise for SDA". -/
def Obligations.DetectorFlags : Prop :=
  ∀ s : State,
    (sclFall s.detectFlags = (s.sclPrev && !s.sclSync) ∧ sclRise s.detectFlags = (!s.sclPrev && s.sclSync) ∧
     sdaFall s.detectFlags = (s.sdaPrev && !s.sdaSync) ∧ sdaRise s.detectFlags = (!s.sdaPrev && s.sdaSync)) ∧
    ¬ (sclFall s.detectFlags = true ∧ sclRise s.detectFlags = true) ∧
    ¬ (sdaFall s.detectFlags = true ∧ sdaRise s.detectFlags = true) ∧
    (∀ (c : CycleIn) (t : State), s.nextCycle? = some c → c.rst = false → step s = .next t →
      (sclFall s.detectFlags = true → t.sclPrev = false) ∧ (sclRise s.detectFlags = true → t.sclPrev = true) ∧
      ((sclFall s.detectFlags || sclRise s.detectFlags) = false → t.sclPrev = s.sclPrev) ∧
      (sdaFall s.detectFlags = true → t.sdaPrev = false) ∧ (sdaRise s.detectFlags = true → t.sdaPrev = true) ∧
      ((sdaFall s.detectFlags || sdaRise s.detectFlags) = false → t.sdaPrev = s.sdaPrev))

/-- R81, R85, R190: at every clock edge with `rst = 0`, "whatever `enable` is", the synchronisers shift, a pin at a
definite level giving that level; with `rst = 1` all six are 1, so the next cycle has no flag. -/
def Obligations.SynchroniserShift : Prop :=
  ∀ (s t : State) (c : CycleIn), s.nextCycle? = some c → step s = .next t →
    (c.rst = false →
      t.sclPrev = s.sclSync ∧ t.sclSync = s.sclMeta ∧ t.sdaPrev = s.sdaSync ∧ t.sdaSync = s.sdaMeta ∧
      (c.sclPin = .low → t.sclMeta = false) ∧ (c.sclPin = .high → t.sclMeta = true) ∧
      (c.sdaPin = .low → t.sdaMeta = false) ∧ (c.sdaPin = .high → t.sdaMeta = true)) ∧
    (c.rst = true →
      t.sclMeta = true ∧ t.sclSync = true ∧ t.sclPrev = true ∧ t.sdaMeta = true ∧ t.sdaSync = true ∧
      t.sdaPrev = true ∧ t.detectFlags = 0)

/-- R87: a pin level captured by the clock edge that ends a cycle makes its flag in the second cycle after that one,
against the level captured before it. -/
def Obligations.ReactionLatency : Prop :=
  ∀ (s : State) (c d : CycleIn) (rest : List Stimulus), s.script = .cycle c :: .cycle d :: rest →
    c.rst = false → d.rst = false → c.sclPin ≠ .changing → c.sdaPin ≠ .changing →
    ∃ t, core.run 2 s = .next t ∧
      t.detectFlags = mkFlags (s.sclMeta && decide (c.sclPin = .low)) (!s.sclMeta && decide (c.sclPin = .high))
                              (s.sdaMeta && decide (c.sdaPin = .low)) (!s.sdaMeta && decide (c.sdaPin = .high)) ∧
      t.sclSync = decide (c.sclPin = .high) ∧ t.sdaSync = decide (c.sdaPin = .high)

/-- R83: the levels of a cycle are the samples that made its flags: a SCL event has the level after the edge, and "a START
or STOP is recognised only when SCL was high on both sides of the SDA edge". -/
def Obligations.StartStopNeedStableScl : Prop :=
  ∀ (s : State) (c : CycleIn), s.nextCycle? = some c →
    s.latched.inp.sclLevel = s.sclSync ∧ s.latched.inp.sdaLevel = s.sdaSync ∧
    (s.nextOp = some .sclf → s.latched.inp.sclLevel = false) ∧
    (s.nextOp = some .sclr → s.latched.inp.sclLevel = true) ∧
    (s.nextOp ∈ [some .start, some .rstart] →
      s.sclPrev = true ∧ s.sclSync = true ∧ s.latched.inp.sdaLevel = false) ∧
    (s.nextOp ∈ [some .stop, some .stopIgn] →
      s.sclPrev = true ∧ s.sclSync = true ∧ s.latched.inp.sdaLevel = true)

/-- R192, R193: after the reset cycle, three cycles with `enable = 0` and steady pins fill the synchronisers with the
true levels; the fill-up flags are lost in HOLD, and the protocol registers are still those of reset. -/
def Obligations.BringUpSettles : Prop :=
  ∀ (s : State) (r c1 c2 c3 : CycleIn) (rest : List Stimulus) (p q : Bool),
    s.script = .cycle r :: .cycle c1 :: .cycle c2 :: .cycle c3 :: rest → r.rst = true →
    (∀ c ∈ [c1, c2, c3], c.rst = false ∧ c.enable = false ∧
      c.sclPin = (if p then .high else .low) ∧ c.sdaPin = (if q then .high else .low)) →
    ∃ t, core.run 4 s = .next t ∧
      t.protocolState = .idle ∧ t.busStarted = false ∧ t.busRestarted = false ∧ t.edgeCounter = 0 ∧
      t.needAck = false ∧ t.activeByte = 0 ∧ t.pendingTxByte = 0 ∧ t.sdaLow = false ∧ t.out = Outputs.zero ∧
      t.sclMeta = p ∧ t.sclSync = p ∧ t.sclPrev = p ∧ t.sdaMeta = q ∧ t.sdaSync = q ∧ t.sdaPrev = q ∧
      t.detectFlags = 0 ∧ t.script = rest

/-- R195 (i), R196 ("The engine's own data changes are safe by construction"), on the wired-AND bus of R53 (PRESUMED, log
9): from a settled, aligned state, with every SCL phase at least the floor of R195 long and the master holding
its own SDA output, no step is ever a START or a STOP: the engine's own changes of SDA come back only while
SCL is low. -/
def Obligations.OwnEchoNeverStartsOrStops : Prop :=
  ∀ (s t : State) (levels : List Bool) (master : Bool) (a : Answers) (rest : List Stimulus) (n k : Nat),
    s.Aligned → s.sclMeta = true → s.sclSync = true → s.sclPrev = true →
    s.sdaMeta = s.sdaLine master → s.sdaSync = s.sdaLine master → s.sdaPrev = s.sdaLine master →
    sclLowFloor 0 ≤ n → phasesAtLeast n n true levels = true →
    s.script = levels.map (fun x => Stimulus.busCycle
      { rst := false, enable := true, sclPin := if x then .high else .low, sdaPin := if master then .high else .low,
        busAddr := a.busAddr, rxAck := a.rxAck, txData := a.txData }) ++ rest →
    k < levels.length → core.run k s = .next t →
    t.nextOp ∉ [some .start, some .rstart, some .stop, some .stopIgn]
end

