-- ==== Sys2Proof/Laws/Decode.lean ====
section
/-! SUPPORT. The decoder's lemmas: packing and unpacking are inverse, and a level-1 choice looks at OPW[15:8]
alone (R63). -/

namespace Sys2Proof

@[simp] theorem ProtocolState.ofCode_code (st : ProtocolState) : ProtocolState.ofCode st.code = st := by
  cases st <;> rfl

@[simp] theorem ProtocolState.code_ofCode (c : BitVec 2) : (ProtocolState.ofCode c).code = c := by
  revert c; decide

theorem unpackTail_packTail (t : OpwTail) : unpackTail (packTail t) = t := by
  obtain ⟨st, sda, c⟩ := t
  cases st <;> cases sda <;> revert c <;> decide

theorem packTail_unpackTail (b : BitVec 8) : packTail (unpackTail b) = b := by
  revert b; decide

/-- The fields of OPW[15:8]. -/
theorem packHead_fields (a b c d : Bool) (f : FlagWord) :
    (packHead a b c d f).getLsbD 7 = a ∧ (packHead a b c d f).getLsbD 6 = b ∧
    (packHead a b c d f).getLsbD 5 = c ∧ (packHead a b c d f).getLsbD 4 = d ∧
    (packHead a b c d f).extractLsb' 0 4 = f := by
  cases a <;> cases b <;> cases c <;> cases d <;> revert f <;> decide

theorem packHead_of_bits (h : BitVec 8) :
    packHead (h.getLsbD 7) (h.getLsbD 6) (h.getLsbD 5) (h.getLsbD 4) (h.extractLsb' 0 4) = h := by
  revert h; decide

theorem getLsbD_joinOpw (h t : BitVec 8) (i : Nat) :
    (joinOpw h t).getLsbD i = if i < 8 then t.getLsbD i else h.getLsbD (i - 8) :=
  BitVec.getLsbD_append

theorem unpackOpw_joinOpw (h t : BitVec 8) :
    unpackOpw (joinOpw h t) =
      ⟨h.getLsbD 7, h.getLsbD 6, h.getLsbD 5, h.getLsbD 4, h.extractLsb' 0 4, unpackTail t⟩ := by
  have hx : (joinOpw h t).extractLsb' 8 4 = h.extractLsb' 0 4 := by
    apply BitVec.eq_of_getLsbD_eq
    intro i hi
    simp [getLsbD_joinOpw]
  have ht : (joinOpw h t).extractLsb' 0 8 = t := by
    apply BitVec.eq_of_getLsbD_eq
    intro i hi
    simp only [BitVec.getLsbD_extractLsb', getLsbD_joinOpw]
    simp [hi]
  simp only [unpackOpw, hx, ht, getLsbD_joinOpw]
  rfl

theorem unpackOpw_packOpw (f : OpwFields) : unpackOpw (packOpw f) = f := by
  obtain ⟨a, b, c, d, fl, t⟩ := f
  obtain ⟨ha, hb, hc, hd, hf⟩ := packHead_fields a b c d fl
  rw [packOpw, unpackOpw_joinOpw, ha, hb, hc, hd, hf, unpackTail_packTail]

/-- Every word is its head and its tail. -/
theorem opw_split (w : Opw) : ∃ h t : BitVec 8, w = joinOpw h t :=
  ⟨w.extractLsb' 8 8, w.extractLsb' 0 8, by
    apply BitVec.eq_of_getLsbD_eq
    intro i hi
    simp only [getLsbD_joinOpw, BitVec.getLsbD_extractLsb']
    by_cases h : i < 8
    · simp [h]
    · simp [h, show i - 8 < 8 by omega, show 8 + (i - 8) = i by omega]⟩

theorem packOpw_unpackOpw (w : Opw) : packOpw (unpackOpw w) = w := by
  obtain ⟨h, t, rfl⟩ := opw_split w
  rw [unpackOpw_joinOpw, packOpw, packHead_of_bits, packTail_unpackTail]

theorem joinOpw_and (h t m n : BitVec 8) : joinOpw h t &&& joinOpw m n = joinOpw (h &&& m) (t &&& n) :=
  BitVec.and_append

/-- Every level-1 mask is 0 in OPW[7:0]. -/
theorem opwRow_mask_head {r : OpwRow} (hr : r ∈ opwRows) : ∃ m : BitVec 8, r.mask = joinOpw m 0 := by
  have h : opwRows.all (fun r => r.mask == joinOpw (r.mask.extractLsb' 8 8) 0) = true := by decide
  exact ⟨_, by simpa using List.all_eq_true.mp h r hr⟩

/-- "Bits 7:0 of OPW never take part in the level-1 choice" (R63), row by row. -/
theorem opwRow_hits_ignores_tail {r : OpwRow} (hr : r ∈ opwRows) (h t : BitVec 8) :
    r.hits (joinOpw h t) = r.hits (joinOpw h 0) := by
  obtain ⟨m, hm⟩ := opwRow_mask_head hr
  simp [OpwRow.hits, hm, joinOpw_and]

/-- "Bits 7:0 of OPW never take part in the level-1 choice" (R63). -/
theorem level1Op_ignores_tail (h t : BitVec 8) : level1Op (joinOpw h t) = level1Op (joinOpw h 0) := by
  have key : ∀ l : List OpwRow, (∀ r ∈ l, r.hits (joinOpw h t) = r.hits (joinOpw h 0)) →
      l.find? (·.hits (joinOpw h t)) = l.find? (·.hits (joinOpw h 0)) := by
    intro l hl
    induction l with
    | nil => rfl
    | cons r l ih => simp only [List.find?_cons, hl r (by simp), ih (fun q hq => hl q (by simp [hq]))]
  simp only [level1Op, key opwRows (fun r hr => opwRow_hits_ignores_tail hr h t)]

/-- The level-1 choice of a packed word, from its head. -/
theorem level1Op_packOpw (f : OpwFields) :
    level1Op (packOpw f) = level1Op (joinOpw (packHead f.rst f.enable f.busStarted f.sclLevel f.flags) 0) :=
  level1Op_ignores_tail _ _

/-- Some row matches every word. -/
theorem level1Op_isSome (w : Opw) : (level1Op w).isSome := by
  obtain ⟨h, t, rfl⟩ := opw_split w
  rw [level1Op_ignores_tail]
  revert h; decide

/-- Decoding a packed word whose operation is known. -/
theorem decodeOpw_packOpw {f : OpwFields} {op : Level1Op} (h : level1Op (packOpw f) = some op)
    (hw : (instrOf op f).wellFormed = true) : decodeOpw (packOpw f) = .ok (instrOf op f) := by
  simp [decodeOpw, h, unpackOpw_packOpw, hw]

@[simp] theorem mkFlags_bits (a b c d : Bool) :
    (mkFlags a b c d).getLsbD 3 = a ∧ (mkFlags a b c d).getLsbD 2 = b ∧
    (mkFlags a b c d).getLsbD 1 = c ∧ (mkFlags a b c d).getLsbD 0 = d := by
  cases a <;> cases b <;> cases c <;> cases d <;> decide

@[simp] theorem mkFlags_getElem (a b c d : Bool) :
    (mkFlags a b c d)[3] = a ∧ (mkFlags a b c d)[2] = b ∧ (mkFlags a b c d)[1] = c ∧ (mkFlags a b c d)[0] = d :=
  mkFlags_bits a b c d

end Sys2Proof
end

