-- ==== Sys2Proof/Laws/State.lean ====
section
/-! SUPPORT. One lemma per field per primitive update of the state, so that no proof unfolds a record update. -/

namespace Sys2Proof.Machine

/-! ## driveLow -/

@[simp] theorem driveLow_protocolState (s : State) : s.driveLow.protocolState = s.protocolState := rfl
@[simp] theorem driveLow_busStarted (s : State) : s.driveLow.busStarted = s.busStarted := rfl
@[simp] theorem driveLow_busRestarted (s : State) : s.driveLow.busRestarted = s.busRestarted := rfl
@[simp] theorem driveLow_edgeCounter (s : State) : s.driveLow.edgeCounter = s.edgeCounter := rfl
@[simp] theorem driveLow_needAck (s : State) : s.driveLow.needAck = s.needAck := rfl
@[simp] theorem driveLow_activeByte (s : State) : s.driveLow.activeByte = s.activeByte := rfl
@[simp] theorem driveLow_pendingTxByte (s : State) : s.driveLow.pendingTxByte = s.pendingTxByte := rfl
@[simp] theorem driveLow_sdaLow (s : State) : s.driveLow.sdaLow = true := rfl
@[simp] theorem driveLow_sclMeta (s : State) : s.driveLow.sclMeta = s.sclMeta := rfl
@[simp] theorem driveLow_sclSync (s : State) : s.driveLow.sclSync = s.sclSync := rfl
@[simp] theorem driveLow_sclPrev (s : State) : s.driveLow.sclPrev = s.sclPrev := rfl
@[simp] theorem driveLow_sdaMeta (s : State) : s.driveLow.sdaMeta = s.sdaMeta := rfl
@[simp] theorem driveLow_sdaSync (s : State) : s.driveLow.sdaSync = s.sdaSync := rfl
@[simp] theorem driveLow_sdaPrev (s : State) : s.driveLow.sdaPrev = s.sdaPrev := rfl
@[simp] theorem driveLow_inp (s : State) : s.driveLow.inp = s.inp := rfl
@[simp] theorem driveLow_out (s : State) : s.driveLow.out = s.out := rfl
@[simp] theorem driveLow_script (s : State) : s.driveLow.script = s.script := rfl
@[simp] theorem driveLow_freeIndex (s : State) : s.driveLow.freeIndex = s.freeIndex := rfl

/-! ## releaseHigh -/

@[simp] theorem releaseHigh_protocolState (s : State) : s.releaseHigh.protocolState = s.protocolState := rfl
@[simp] theorem releaseHigh_busStarted (s : State) : s.releaseHigh.busStarted = s.busStarted := rfl
@[simp] theorem releaseHigh_busRestarted (s : State) : s.releaseHigh.busRestarted = s.busRestarted := rfl
@[simp] theorem releaseHigh_edgeCounter (s : State) : s.releaseHigh.edgeCounter = s.edgeCounter := rfl
@[simp] theorem releaseHigh_needAck (s : State) : s.releaseHigh.needAck = s.needAck := rfl
@[simp] theorem releaseHigh_activeByte (s : State) : s.releaseHigh.activeByte = s.activeByte := rfl
@[simp] theorem releaseHigh_pendingTxByte (s : State) : s.releaseHigh.pendingTxByte = s.pendingTxByte := rfl
@[simp] theorem releaseHigh_sdaLow (s : State) : s.releaseHigh.sdaLow = false := rfl
@[simp] theorem releaseHigh_sclMeta (s : State) : s.releaseHigh.sclMeta = s.sclMeta := rfl
@[simp] theorem releaseHigh_sclSync (s : State) : s.releaseHigh.sclSync = s.sclSync := rfl
@[simp] theorem releaseHigh_sclPrev (s : State) : s.releaseHigh.sclPrev = s.sclPrev := rfl
@[simp] theorem releaseHigh_sdaMeta (s : State) : s.releaseHigh.sdaMeta = s.sdaMeta := rfl
@[simp] theorem releaseHigh_sdaSync (s : State) : s.releaseHigh.sdaSync = s.sdaSync := rfl
@[simp] theorem releaseHigh_sdaPrev (s : State) : s.releaseHigh.sdaPrev = s.sdaPrev := rfl
@[simp] theorem releaseHigh_inp (s : State) : s.releaseHigh.inp = s.inp := rfl
@[simp] theorem releaseHigh_out (s : State) : s.releaseHigh.out = s.out := rfl
@[simp] theorem releaseHigh_script (s : State) : s.releaseHigh.script = s.script := rfl
@[simp] theorem releaseHigh_freeIndex (s : State) : s.releaseHigh.freeIndex = s.freeIndex := rfl

/-! ## appAddr -/

@[simp] theorem appAddr_protocolState (s : State) (r q : Bool) : (s.appAddr r q).protocolState = s.protocolState := rfl
@[simp] theorem appAddr_busStarted (s : State) (r q : Bool) : (s.appAddr r q).busStarted = s.busStarted := rfl
@[simp] theorem appAddr_busRestarted (s : State) (r q : Bool) : (s.appAddr r q).busRestarted = s.busRestarted := rfl
@[simp] theorem appAddr_edgeCounter (s : State) (r q : Bool) : (s.appAddr r q).edgeCounter = s.edgeCounter := rfl
@[simp] theorem appAddr_needAck (s : State) (r q : Bool) : (s.appAddr r q).needAck = s.needAck := rfl
@[simp] theorem appAddr_activeByte (s : State) (r q : Bool) : (s.appAddr r q).activeByte = s.activeByte := rfl
@[simp] theorem appAddr_pendingTxByte (s : State) (r q : Bool) : (s.appAddr r q).pendingTxByte = s.pendingTxByte := rfl
@[simp] theorem appAddr_sdaLow (s : State) (r q : Bool) : (s.appAddr r q).sdaLow = s.sdaLow := rfl
@[simp] theorem appAddr_sclMeta (s : State) (r q : Bool) : (s.appAddr r q).sclMeta = s.sclMeta := rfl
@[simp] theorem appAddr_sclSync (s : State) (r q : Bool) : (s.appAddr r q).sclSync = s.sclSync := rfl
@[simp] theorem appAddr_sclPrev (s : State) (r q : Bool) : (s.appAddr r q).sclPrev = s.sclPrev := rfl
@[simp] theorem appAddr_sdaMeta (s : State) (r q : Bool) : (s.appAddr r q).sdaMeta = s.sdaMeta := rfl
@[simp] theorem appAddr_sdaSync (s : State) (r q : Bool) : (s.appAddr r q).sdaSync = s.sdaSync := rfl
@[simp] theorem appAddr_sdaPrev (s : State) (r q : Bool) : (s.appAddr r q).sdaPrev = s.sdaPrev := rfl
@[simp] theorem appAddr_inp (s : State) (r q : Bool) : (s.appAddr r q).inp = s.inp := rfl
@[simp] theorem appAddr_out (s : State) (r q : Bool) : (s.appAddr r q).out = { s.out with addrMatch := true, addrIsRead := r, addrIsRestart := q } := rfl
@[simp] theorem appAddr_script (s : State) (r q : Bool) : (s.appAddr r q).script = s.script := rfl
@[simp] theorem appAddr_freeIndex (s : State) (r q : Bool) : (s.appAddr r q).freeIndex = s.freeIndex := rfl

/-! ## appRx -/

@[simp] theorem appRx_protocolState (s : State) (b : Byte) : (s.appRx b).2.protocolState = s.protocolState := rfl
@[simp] theorem appRx_busStarted (s : State) (b : Byte) : (s.appRx b).2.busStarted = s.busStarted := rfl
@[simp] theorem appRx_busRestarted (s : State) (b : Byte) : (s.appRx b).2.busRestarted = s.busRestarted := rfl
@[simp] theorem appRx_edgeCounter (s : State) (b : Byte) : (s.appRx b).2.edgeCounter = s.edgeCounter := rfl
@[simp] theorem appRx_needAck (s : State) (b : Byte) : (s.appRx b).2.needAck = s.needAck := rfl
@[simp] theorem appRx_activeByte (s : State) (b : Byte) : (s.appRx b).2.activeByte = s.activeByte := rfl
@[simp] theorem appRx_pendingTxByte (s : State) (b : Byte) : (s.appRx b).2.pendingTxByte = s.pendingTxByte := rfl
@[simp] theorem appRx_sdaLow (s : State) (b : Byte) : (s.appRx b).2.sdaLow = s.sdaLow := rfl
@[simp] theorem appRx_sclMeta (s : State) (b : Byte) : (s.appRx b).2.sclMeta = s.sclMeta := rfl
@[simp] theorem appRx_sclSync (s : State) (b : Byte) : (s.appRx b).2.sclSync = s.sclSync := rfl
@[simp] theorem appRx_sclPrev (s : State) (b : Byte) : (s.appRx b).2.sclPrev = s.sclPrev := rfl
@[simp] theorem appRx_sdaMeta (s : State) (b : Byte) : (s.appRx b).2.sdaMeta = s.sdaMeta := rfl
@[simp] theorem appRx_sdaSync (s : State) (b : Byte) : (s.appRx b).2.sdaSync = s.sdaSync := rfl
@[simp] theorem appRx_sdaPrev (s : State) (b : Byte) : (s.appRx b).2.sdaPrev = s.sdaPrev := rfl
@[simp] theorem appRx_inp (s : State) (b : Byte) : (s.appRx b).2.inp = s.inp := rfl
@[simp] theorem appRx_out (s : State) (b : Byte) : (s.appRx b).2.out = { s.out with rxValid := true, rxData := b } := rfl
@[simp] theorem appRx_script (s : State) (b : Byte) : (s.appRx b).2.script = s.script := rfl
@[simp] theorem appRx_freeIndex (s : State) (b : Byte) : (s.appRx b).2.freeIndex = s.freeIndex := rfl
@[simp] theorem appRx_answer (s : State) (b : Byte) : (s.appRx b).1 = s.inp.rxAck := rfl

/-! ## appTx -/

@[simp] theorem appTx_protocolState (s : State) : s.appTx.2.protocolState = s.protocolState := rfl
@[simp] theorem appTx_busStarted (s : State) : s.appTx.2.busStarted = s.busStarted := rfl
@[simp] theorem appTx_busRestarted (s : State) : s.appTx.2.busRestarted = s.busRestarted := rfl
@[simp] theorem appTx_edgeCounter (s : State) : s.appTx.2.edgeCounter = s.edgeCounter := rfl
@[simp] theorem appTx_needAck (s : State) : s.appTx.2.needAck = s.needAck := rfl
@[simp] theorem appTx_activeByte (s : State) : s.appTx.2.activeByte = s.activeByte := rfl
@[simp] theorem appTx_pendingTxByte (s : State) : s.appTx.2.pendingTxByte = s.pendingTxByte := rfl
@[simp] theorem appTx_sdaLow (s : State) : s.appTx.2.sdaLow = s.sdaLow := rfl
@[simp] theorem appTx_sclMeta (s : State) : s.appTx.2.sclMeta = s.sclMeta := rfl
@[simp] theorem appTx_sclSync (s : State) : s.appTx.2.sclSync = s.sclSync := rfl
@[simp] theorem appTx_sclPrev (s : State) : s.appTx.2.sclPrev = s.sclPrev := rfl
@[simp] theorem appTx_sdaMeta (s : State) : s.appTx.2.sdaMeta = s.sdaMeta := rfl
@[simp] theorem appTx_sdaSync (s : State) : s.appTx.2.sdaSync = s.sdaSync := rfl
@[simp] theorem appTx_sdaPrev (s : State) : s.appTx.2.sdaPrev = s.sdaPrev := rfl
@[simp] theorem appTx_inp (s : State) : s.appTx.2.inp = s.inp := rfl
@[simp] theorem appTx_out (s : State) : s.appTx.2.out = { s.out with txReq := true } := rfl
@[simp] theorem appTx_script (s : State) : s.appTx.2.script = s.script := rfl
@[simp] theorem appTx_freeIndex (s : State) : s.appTx.2.freeIndex = s.freeIndex := rfl
@[simp] theorem appTx_answer (s : State) : s.appTx.1 = s.inp.txData := rfl

/-! ## appStop -/

@[simp] theorem appStop_protocolState (s : State) : s.appStop.protocolState = s.protocolState := rfl
@[simp] theorem appStop_busStarted (s : State) : s.appStop.busStarted = s.busStarted := rfl
@[simp] theorem appStop_busRestarted (s : State) : s.appStop.busRestarted = s.busRestarted := rfl
@[simp] theorem appStop_edgeCounter (s : State) : s.appStop.edgeCounter = s.edgeCounter := rfl
@[simp] theorem appStop_needAck (s : State) : s.appStop.needAck = s.needAck := rfl
@[simp] theorem appStop_activeByte (s : State) : s.appStop.activeByte = s.activeByte := rfl
@[simp] theorem appStop_pendingTxByte (s : State) : s.appStop.pendingTxByte = s.pendingTxByte := rfl
@[simp] theorem appStop_sdaLow (s : State) : s.appStop.sdaLow = s.sdaLow := rfl
@[simp] theorem appStop_sclMeta (s : State) : s.appStop.sclMeta = s.sclMeta := rfl
@[simp] theorem appStop_sclSync (s : State) : s.appStop.sclSync = s.sclSync := rfl
@[simp] theorem appStop_sclPrev (s : State) : s.appStop.sclPrev = s.sclPrev := rfl
@[simp] theorem appStop_sdaMeta (s : State) : s.appStop.sdaMeta = s.sdaMeta := rfl
@[simp] theorem appStop_sdaSync (s : State) : s.appStop.sdaSync = s.sdaSync := rfl
@[simp] theorem appStop_sdaPrev (s : State) : s.appStop.sdaPrev = s.sdaPrev := rfl
@[simp] theorem appStop_inp (s : State) : s.appStop.inp = s.inp := rfl
@[simp] theorem appStop_out (s : State) : s.appStop.out = { s.out with stopEvt := true } := rfl
@[simp] theorem appStop_script (s : State) : s.appStop.script = s.script := rfl
@[simp] theorem appStop_freeIndex (s : State) : s.appStop.freeIndex = s.freeIndex := rfl

/-! ## enter -/

@[simp] theorem enter_protocolState (s : State) (e : EventIn) : (s.enter e).protocolState = s.protocolState := rfl
@[simp] theorem enter_busStarted (s : State) (e : EventIn) : (s.enter e).busStarted = s.busStarted := rfl
@[simp] theorem enter_busRestarted (s : State) (e : EventIn) : (s.enter e).busRestarted = s.busRestarted := rfl
@[simp] theorem enter_edgeCounter (s : State) (e : EventIn) : (s.enter e).edgeCounter = s.edgeCounter := rfl
@[simp] theorem enter_needAck (s : State) (e : EventIn) : (s.enter e).needAck = s.needAck := rfl
@[simp] theorem enter_activeByte (s : State) (e : EventIn) : (s.enter e).activeByte = s.activeByte := rfl
@[simp] theorem enter_pendingTxByte (s : State) (e : EventIn) : (s.enter e).pendingTxByte = s.pendingTxByte := rfl
@[simp] theorem enter_sdaLow (s : State) (e : EventIn) : (s.enter e).sdaLow = s.sdaLow := rfl
@[simp] theorem enter_sclMeta (s : State) (e : EventIn) : (s.enter e).sclMeta = s.sclMeta := rfl
@[simp] theorem enter_sclSync (s : State) (e : EventIn) : (s.enter e).sclSync = s.sclSync := rfl
@[simp] theorem enter_sclPrev (s : State) (e : EventIn) : (s.enter e).sclPrev = s.sclPrev := rfl
@[simp] theorem enter_sdaMeta (s : State) (e : EventIn) : (s.enter e).sdaMeta = s.sdaMeta := rfl
@[simp] theorem enter_sdaSync (s : State) (e : EventIn) : (s.enter e).sdaSync = s.sdaSync := rfl
@[simp] theorem enter_sdaPrev (s : State) (e : EventIn) : (s.enter e).sdaPrev = s.sdaPrev := rfl
@[simp] theorem enter_inp (s : State) (e : EventIn) : (s.enter e).inp = e := rfl
@[simp] theorem enter_out (s : State) (e : EventIn) : (s.enter e).out = Outputs.zero := rfl
@[simp] theorem enter_script (s : State) (e : EventIn) : (s.enter e).script = s.script.tail := rfl
@[simp] theorem enter_freeIndex (s : State) (e : EventIn) : (s.enter e).freeIndex = s.freeIndex + 1 := rfl

/-! ## sync -/

@[simp] theorem sync_protocolState (s : State) (x y : Bool) : (s.sync x y).protocolState = s.protocolState := rfl
@[simp] theorem sync_busStarted (s : State) (x y : Bool) : (s.sync x y).busStarted = s.busStarted := rfl
@[simp] theorem sync_busRestarted (s : State) (x y : Bool) : (s.sync x y).busRestarted = s.busRestarted := rfl
@[simp] theorem sync_edgeCounter (s : State) (x y : Bool) : (s.sync x y).edgeCounter = s.edgeCounter := rfl
@[simp] theorem sync_needAck (s : State) (x y : Bool) : (s.sync x y).needAck = s.needAck := rfl
@[simp] theorem sync_activeByte (s : State) (x y : Bool) : (s.sync x y).activeByte = s.activeByte := rfl
@[simp] theorem sync_pendingTxByte (s : State) (x y : Bool) : (s.sync x y).pendingTxByte = s.pendingTxByte := rfl
@[simp] theorem sync_sdaLow (s : State) (x y : Bool) : (s.sync x y).sdaLow = s.sdaLow := rfl
@[simp] theorem sync_sclMeta (s : State) (x y : Bool) : (s.sync x y).sclMeta = x := rfl
@[simp] theorem sync_sclSync (s : State) (x y : Bool) : (s.sync x y).sclSync = s.sclMeta := rfl
@[simp] theorem sync_sclPrev (s : State) (x y : Bool) : (s.sync x y).sclPrev = s.sclSync := rfl
@[simp] theorem sync_sdaMeta (s : State) (x y : Bool) : (s.sync x y).sdaMeta = y := rfl
@[simp] theorem sync_sdaSync (s : State) (x y : Bool) : (s.sync x y).sdaSync = s.sdaMeta := rfl
@[simp] theorem sync_sdaPrev (s : State) (x y : Bool) : (s.sync x y).sdaPrev = s.sdaSync := rfl
@[simp] theorem sync_inp (s : State) (x y : Bool) : (s.sync x y).inp = s.inp := rfl
@[simp] theorem sync_out (s : State) (x y : Bool) : (s.sync x y).out = s.out := rfl
@[simp] theorem sync_script (s : State) (x y : Bool) : (s.sync x y).script = s.script := rfl
@[simp] theorem sync_freeIndex (s : State) (x y : Bool) : (s.sync x y).freeIndex = s.freeIndex := rfl

end Sys2Proof.Machine
end

