-- ==== Sys2Proof/Laws/Exec.lean ====
section
/-! SUPPORT. What each shared operation can do, said once, and what the meanings answer. -/

namespace Sys2Proof.Machine

/-! ## The micro-operations, as updates -/

theorem b0rel_eq (s : State) : s.b0rel = { s with sdaLow := false, activeByte := 0 } := rfl

theorem b0txld_eq (s : State) :
    s.b0txld = { s with pendingTxByte := s.inp.txData, out := { s.out with txReq := true } } := rfl

theorem sample_eq (s : State) : s.sample = { s with activeByte := shiftIn s.activeByte s.inp.sdaLevel } := rfl

theorem txbit_eq (s : State) :
    s.txbit = { s with sdaLow := !transmitBit s.pendingTxByte, pendingTxByte := shiftLeft1 s.pendingTxByte } := by
  cases h : transmitBit s.pendingTxByte <;> simp [State.txbit, State.putBit, h, State.releaseHigh, State.driveLow]

theorem finrx_eq (s : State) :
    s.finrx = { s with needAck := s.inp.rxAck,
                       out := { s.out with rxValid := true, rxData := s.activeByte } } := rfl

theorem finaddr_match {s : State} (h : receivedAddress s.activeByte = s.inp.busAddr) :
    s.finaddr =
      { s with needAck := true
               protocolState := if directionBit s.activeByte then .transmitting else .receiving
               out := { s.out with addrMatch := true, addrIsRead := directionBit s.activeByte,
                                   addrIsRestart := s.busRestarted } } := by
  simp [State.finaddr, State.addressMatches, h, State.addressMatch, State.appAddr]

theorem finaddr_mismatch {s : State} (h : receivedAddress s.activeByte ≠ s.inp.busAddr) :
    s.finaddr = { s with protocolState := .idle, busStarted := false, busRestarted := false } := by
  simp [State.finaddr, State.addressMatches, h, State.dropBus]

theorem ackslot_eq (s : State) : s.ackslot = { s with sdaLow := s.needAck, needAck := false } := by
  cases s; rename_i na _ _ _ _ _ _ _ _ _ _ _ _ _; cases na <;> rfl

theorem cntinc_eq (s : State) (c : EdgeIndex) : s.cntinc c = { s with edgeCounter := nextIndex c } := rfl

theorem cntwrap_eq (s : State) : s.cntwrap = { s with edgeCounter := 0 } := rfl

theorem nextIndex_val {c : EdgeIndex} (h : c.val ≠ 17) : (nextIndex c).val = c.val + 1 := by
  revert c; decide

/-! ## The meanings -/

/-- Every meaning answers a next state: nothing is raised (R170). -/
theorem exec_next (i : Instr) (s : State) : ∃ t, exec i s = .next t := by
  cases i <;> exact ⟨_, rfl⟩

@[simp] theorem onNext_next (f : State → State) (s : State) : onNext f (.next s) = .next (f s) := rfl

theorem onNext_eq_next {f : State → State} {o : Outcome} {t : State} (h : onNext f o = .next t) :
    ∃ u, o = .next u ∧ t = f u := by
  cases o with
  | next s => exact ⟨s, rfl, by simpa using h.symm⟩
  | fault r => nomatch r
  | refused r => simp [onNext] at h

/-! ## The operation word of a state -/

theorem opw_eq (s : State) : s.opw = packOpw s.opwFields := rfl

theorem edgeIndex_bits_ok (c : EdgeIndex) : (EdgeIndex.bits c).toNat < 18 := by
  revert c; decide

/-- No state presents a word the decoder refuses (R63, R66 item 3): the event's operation, decoded. -/
theorem decodeOpw_opw (s : State) {op : Level1Op} (h : level1Op s.opw = some op) :
    decodeOpw s.opw = .ok (instrOf op s.opwFields) := by
  have hi : s.opwFields.tail.indexOk = true := by
    exact decide_eq_true (edgeIndex_bits_ok s.edgeCounter)
  refine decodeOpw_packOpw h ?_
  cases op <;> first | rfl | exact hi

/-- An event runs the operation its word selects. -/
theorem runLatched_eq (s : State) {op : Level1Op} (h : level1Op s.opw = some op) :
    runLatched s = exec (instrOf op s.opwFields) s := by
  simp [runLatched, decodeOpw_opw s h]

end Sys2Proof.Machine
end

