-- ==== Sys2Proof/Laws/PerInstr.lean ====
section
/-! SUPPORT. The family SelectedByOwnRow, one lemma per instruction: the encoder's word is selected by that
instruction's own row of the table (R63, R64). -/

namespace Sys2Proof.Laws

/-- The row an instruction belongs to. -/
def rowOf : Instr → Sum Level1Op MicroOp
  | .reset _ _ _ _ _ => .inl .reset
  | .hold _ _ _ _ => .inl .hold
  | .sclf _ _ _ _ _ => .inl .sclf
  | .sclfIgn _ _ _ _ _ => .inl .sclfIgn
  | .sclr _ _ _ _ => .inl .sclr
  | .sclrIgn _ _ _ _ => .inl .sclrIgn
  | .start _ _ => .inl .start
  | .rstart _ _ => .inl .rstart
  | .sdafIgn _ _ _ => .inl .sdafIgn
  | .stop _ => .inl .stop
  | .stopIgn _ => .inl .stopIgn
  | .sdarIgn _ _ => .inl .sdarIgn
  | .nop _ _ _ => .inl .nop
  | .b0rel _ _ => .inr .b0rel
  | .b0relRx _ => .inr .b0relRx
  | .b0txld _ => .inr .b0txld
  | .sampleAddr _ => .inr .sampleAddr
  | .sampleRx _ => .inr .sampleRx
  | .txbit _ => .inr .txbit
  | .finrx _ => .inr .finrx
  | .finaddr _ => .inr .finaddr
  | .ackslot _ _ => .inr .ackslot
  | .cntinc _ _ _ => .inr .cntinc
  | .cntincAck _ _ => .inr .cntincAck
  | .cntwrap _ _ => .inr .cntwrap

/-- The micro-operation row that selects a MOW in a phase. -/
def microRowAt (p : Phase) (m : Mow) : Option MicroOp :=
  (mowRows.find? (fun r => decide (r.phase = p) && r.hits m)).map (·.op)

/-- The row that selects a code word. -/
def selectedRow : CodeWord → Option (Sum Level1Op MicroOp)
  | .opw w => (level1Op w).map .inl
  | .mow p m => (microRowAt p m).map .inr

/-- A well-formed instruction's encoding is selected by its own row. -/
abbrev SelectedByOwnRow.Statement (i : Instr) : Prop := i.wellFormed = true → selectedRow (encode i) = some (rowOf i)

/-- A level-1 row selects a packed word when it selects the word's head. -/
theorem selectedRow_packOpw {a b c d : Bool} {f : FlagWord} {t : OpwTail} {op : Level1Op}
    (h : level1Op (joinOpw (packHead a b c d f) 0) = some op) :
    selectedRow (.opw (packOpw ⟨a, b, c, d, f, t⟩)) = some (.inl op) := by
  rw [selectedRow, level1Op_packOpw, h]
  rfl

theorem SelectedByOwnRow.reset (en bs scl : Bool) (f : FlagWord) (t : OpwTail) :
    SelectedByOwnRow.Statement (.reset en bs scl f t) := fun w =>
  selectedRow_packOpw (by clear w; cases en <;> cases bs <;> cases scl <;> (revert f; decide))

theorem SelectedByOwnRow.hold (bs scl : Bool) (f : FlagWord) (t : OpwTail) :
    SelectedByOwnRow.Statement (.hold bs scl f t) := fun w =>
  selectedRow_packOpw (by clear w; cases bs <;> cases scl <;> (revert f; decide))

theorem SelectedByOwnRow.sclf (scl f2 f1 f0 : Bool) (t : OpwTail) :
    SelectedByOwnRow.Statement (.sclf scl f2 f1 f0 t) := fun w =>
  selectedRow_packOpw (by clear w; cases scl <;> cases f2 <;> cases f1 <;> cases f0 <;> decide)

theorem SelectedByOwnRow.sclfIgn (scl f2 f1 f0 : Bool) (t : OpwTail) :
    SelectedByOwnRow.Statement (.sclfIgn scl f2 f1 f0 t) := fun w =>
  selectedRow_packOpw (by clear w; cases scl <;> cases f2 <;> cases f1 <;> cases f0 <;> decide)

theorem SelectedByOwnRow.sclr (scl f1 f0 : Bool) (t : OpwTail) :
    SelectedByOwnRow.Statement (.sclr scl f1 f0 t) := fun w =>
  selectedRow_packOpw (by clear w; cases scl <;> cases f1 <;> cases f0 <;> decide)

theorem SelectedByOwnRow.sclrIgn (scl f1 f0 : Bool) (t : OpwTail) :
    SelectedByOwnRow.Statement (.sclrIgn scl f1 f0 t) := fun w =>
  selectedRow_packOpw (by clear w; cases scl <;> cases f1 <;> cases f0 <;> decide)

theorem SelectedByOwnRow.start (f0 : Bool) (t : OpwTail) :
    SelectedByOwnRow.Statement (.start f0 t) := fun w =>
  selectedRow_packOpw (by clear w; cases f0 <;> decide)

theorem SelectedByOwnRow.rstart (f0 : Bool) (t : OpwTail) :
    SelectedByOwnRow.Statement (.rstart f0 t) := fun w =>
  selectedRow_packOpw (by clear w; cases f0 <;> decide)

theorem SelectedByOwnRow.sdafIgn (bs f0 : Bool) (t : OpwTail) :
    SelectedByOwnRow.Statement (.sdafIgn bs f0 t) := fun w =>
  selectedRow_packOpw (by clear w; cases bs <;> cases f0 <;> decide)

theorem SelectedByOwnRow.stop (t : OpwTail) :
    SelectedByOwnRow.Statement (.stop t) := fun w =>
  selectedRow_packOpw (by clear w; decide)

theorem SelectedByOwnRow.stopIgn (t : OpwTail) :
    SelectedByOwnRow.Statement (.stopIgn t) := fun w =>
  selectedRow_packOpw (by clear w; decide)

theorem SelectedByOwnRow.sdarIgn (bs : Bool) (t : OpwTail) :
    SelectedByOwnRow.Statement (.sdarIgn bs t) := fun w =>
  selectedRow_packOpw (by clear w; cases bs <;> decide)

theorem SelectedByOwnRow.nop (bs scl : Bool) (t : OpwTail) :
    SelectedByOwnRow.Statement (.nop bs scl t) := fun w =>
  selectedRow_packOpw (by clear w; cases bs <;> cases scl <;> decide)

theorem SelectedByOwnRow.b0rel (r : Bool) (st : ProtocolState) : SelectedByOwnRow.Statement (.b0rel r st) :=
  by cases r <;> cases st <;> decide

theorem SelectedByOwnRow.b0relRx (r : Bool) : SelectedByOwnRow.Statement (.b0relRx r) :=
  by cases r <;> decide

theorem SelectedByOwnRow.b0txld (r : Bool) : SelectedByOwnRow.Statement (.b0txld r) :=
  by cases r <;> decide

theorem SelectedByOwnRow.sampleAddr (k : BitVec 4) : SelectedByOwnRow.Statement (.sampleAddr k) :=
  by revert k; decide

theorem SelectedByOwnRow.sampleRx (k : BitVec 4) : SelectedByOwnRow.Statement (.sampleRx k) :=
  by revert k; decide

theorem SelectedByOwnRow.txbit (k : BitVec 4) : SelectedByOwnRow.Statement (.txbit k) :=
  by revert k; decide

theorem SelectedByOwnRow.finrx (r : Bool) : SelectedByOwnRow.Statement (.finrx r) :=
  by cases r <;> decide

theorem SelectedByOwnRow.finaddr (r : Bool) : SelectedByOwnRow.Statement (.finaddr r) :=
  by cases r <;> decide

theorem SelectedByOwnRow.ackslot (r : Bool) (st : ProtocolState) : SelectedByOwnRow.Statement (.ackslot r st) :=
  by cases r <;> cases st <;> decide

theorem SelectedByOwnRow.cntinc (r : Bool) (st : ProtocolState) (k : BitVec 4) : SelectedByOwnRow.Statement (.cntinc r st k) :=
  by cases r <;> cases st <;> revert k <;> decide

theorem SelectedByOwnRow.cntincAck (r : Bool) (st : ProtocolState) : SelectedByOwnRow.Statement (.cntincAck r st) :=
  by cases r <;> cases st <;> decide

theorem SelectedByOwnRow.cntwrap (r : Bool) (st : ProtocolState) : SelectedByOwnRow.Statement (.cntwrap r st) :=
  by cases r <;> cases st <;> decide

end Sys2Proof.Laws
end

