-- ==== Sys2Proof/Laws/SclStep.lean ====
section
/-! SUPPORT. Everything a SCL step can do, as one update of the state per cell of the flattened table (R67): what the
claims about frames cite, so that no proof unfolds the five phases. -/

namespace Sys2Proof.Machine

/-- The data bit of a rising edge: an address or received byte takes the sampled level (R123, R124). -/
def sampledByte (rise : Bool) (st : ProtocolState) (b : Byte) (bit : Bool) : Byte :=
  if rise = true ∧ (st = .addressPhase ∨ st = .receiving) then shiftIn b bit else b

theorem dataBitPhase_le {c : EdgeIndex} (h : c.val ≤ 15) (st : ProtocolState) (rise : Bool) (s : State) :
    dataBitPhase c st rise s =
      if rise = false ∧ st = .transmitting then
        { s with sdaLow := !transmitBit s.pendingTxByte, pendingTxByte := shiftLeft1 s.pendingTxByte }
      else { s with activeByte := sampledByte rise st s.activeByte s.inp.sdaLevel } := by
  cases rise <;> cases st <;> simp [dataBitPhase, h, sampledByte, txbit_eq, sample_eq]

/-- Index 0, not Transmitting: B0REL, then the data bit (R121, R124). -/
theorem sclStep_zero_listen {s : State} (rise : Bool) (hc : s.edgeCounter.val = 0)
    (ht : s.protocolState ≠ .transmitting) :
    sclStep rise s =
      { s with sdaLow := false
               activeByte := sampledByte rise s.protocolState 0 s.inp.sdaLevel
               edgeCounter := nextIndex s.edgeCounter } := by
  simp [sclStep, byteStartPhase, dataBitPhase_le (show s.edgeCounter.val ≤ 15 by omega), finalisePhase, ackPhase,
    counterPhase, hc, ht, b0rel_eq, cntinc_eq]

/-- Index 0, Transmitting, falling: the application's byte is taken and its bit 7 put on SDA (R122, R125). -/
theorem sclStep_zero_fall_transmitting {s : State} (hc : s.edgeCounter.val = 0)
    (ht : s.protocolState = .transmitting) :
    sclStep false s =
      { s with sdaLow := !transmitBit s.inp.txData
               pendingTxByte := shiftLeft1 s.inp.txData
               out := { s.out with txReq := true }
               edgeCounter := nextIndex s.edgeCounter } := by
  simp [sclStep, byteStartPhase, dataBitPhase_le (show s.edgeCounter.val ≤ 15 by omega), finalisePhase, ackPhase,
    counterPhase, hc, ht, b0txld_eq, cntinc_eq]

/-- Index 0, Transmitting, rising: the byte is taken, no bit is sent (R122, R123). -/
theorem sclStep_zero_rise_transmitting {s : State} (hc : s.edgeCounter.val = 0)
    (ht : s.protocolState = .transmitting) :
    sclStep true s =
      { s with pendingTxByte := s.inp.txData
               out := { s.out with txReq := true }
               edgeCounter := nextIndex s.edgeCounter } := by
  simp [sclStep, byteStartPhase, dataBitPhase_le (show s.edgeCounter.val ≤ 15 by omega), finalisePhase, ackPhase,
    counterPhase, hc, ht, b0txld_eq, cntinc_eq, sampledByte]

/-- Index 1 to 15 up to the finalisation: the data bit alone (R123). -/
theorem sclStep_middle {s : State} (rise : Bool) (h1 : 1 ≤ s.edgeCounter.val) (h2 : s.edgeCounter.val ≤ 14) :
    sclStep rise s =
      if rise = false ∧ s.protocolState = .transmitting then
        { s with sdaLow := !transmitBit s.pendingTxByte
                 pendingTxByte := shiftLeft1 s.pendingTxByte
                 edgeCounter := nextIndex s.edgeCounter }
      else
        { s with activeByte := sampledByte rise s.protocolState s.activeByte s.inp.sdaLevel
                 edgeCounter := nextIndex s.edgeCounter } := by
  have e0 : s.edgeCounter.val ≠ 0 := by omega
  have e15 : s.edgeCounter.val ≠ 15 := by omega
  have e16 : s.edgeCounter.val ≠ 16 := by omega
  have e17 : s.edgeCounter.val ≠ 17 := by omega
  simp only [sclStep, byteStartPhase, dataBitPhase_le (show s.edgeCounter.val ≤ 15 by omega), finalisePhase, ackPhase,
    counterPhase, if_neg e0, if_neg e15, if_neg e16, if_neg e17, cntinc_eq]
  split <;> rfl

/-- Index 15, Receiving: the byte is complete and handed over (R141). -/
theorem sclStep_last_receiving {s : State} (rise : Bool) (hc : s.edgeCounter.val = 15)
    (hr : s.protocolState = .receiving) :
    sclStep rise s =
      { s with activeByte := sampledByte rise .receiving s.activeByte s.inp.sdaLevel
               needAck := s.inp.rxAck
               out := { s.out with
                        rxValid := true, rxData := sampledByte rise .receiving s.activeByte s.inp.sdaLevel }
               edgeCounter := nextIndex s.edgeCounter } := by
  simp [sclStep, byteStartPhase, dataBitPhase_le (show s.edgeCounter.val ≤ 15 by omega), finalisePhase, ackPhase,
    counterPhase, hc, hr, finrx_eq, cntinc_eq]

/-- Index 15, AddressPhase, the compare succeeds (R142). -/
theorem sclStep_last_match {s : State} (rise : Bool) (hc : s.edgeCounter.val = 15)
    (ha : s.protocolState = .addressPhase)
    (hm : receivedAddress (sampledByte rise .addressPhase s.activeByte s.inp.sdaLevel) = s.inp.busAddr) :
    sclStep rise s =
      { s with activeByte := sampledByte rise .addressPhase s.activeByte s.inp.sdaLevel
               needAck := true
               protocolState :=
                 if directionBit (sampledByte rise .addressPhase s.activeByte s.inp.sdaLevel) then .transmitting
                 else .receiving
               out := { s.out with
                        addrMatch := true
                        addrIsRead := directionBit (sampledByte rise .addressPhase s.activeByte s.inp.sdaLevel)
                        addrIsRestart := s.busRestarted }
               edgeCounter := nextIndex s.edgeCounter } := by
  simp [sclStep, byteStartPhase, dataBitPhase_le (show s.edgeCounter.val ≤ 15 by omega), finalisePhase, ackPhase,
    counterPhase, hc, ha, State.finaddr, State.addressMatches, hm, State.addressMatch, State.appAddr, cntinc_eq]

/-- Index 15, AddressPhase, the compare fails (R143). -/
theorem sclStep_last_mismatch {s : State} (rise : Bool) (hc : s.edgeCounter.val = 15)
    (ha : s.protocolState = .addressPhase)
    (hm : receivedAddress (sampledByte rise .addressPhase s.activeByte s.inp.sdaLevel) ≠ s.inp.busAddr) :
    sclStep rise s =
      { s with activeByte := sampledByte rise .addressPhase s.activeByte s.inp.sdaLevel
               protocolState := .idle
               busStarted := false
               busRestarted := false
               edgeCounter := nextIndex s.edgeCounter } := by
  simp [sclStep, byteStartPhase, dataBitPhase_le (show s.edgeCounter.val ≤ 15 by omega), finalisePhase, ackPhase,
    counterPhase, hc, ha, State.finaddr, State.addressMatches, hm, State.dropBus, cntinc_eq]

/-- Index 15, Idle or Transmitting: nothing is finalised (R147). -/
theorem sclStep_last_other {s : State} (rise : Bool) (hc : s.edgeCounter.val = 15)
    (ho : s.protocolState ≠ .receiving ∧ s.protocolState ≠ .addressPhase) :
    sclStep rise s =
      if rise = false ∧ s.protocolState = .transmitting then
        { s with sdaLow := !transmitBit s.pendingTxByte
                 pendingTxByte := shiftLeft1 s.pendingTxByte
                 edgeCounter := nextIndex s.edgeCounter }
      else { s with edgeCounter := nextIndex s.edgeCounter } := by
  obtain ⟨h1, h2⟩ := ho
  cases rise <;> cases ht : s.protocolState <;>
    simp_all [sclStep, byteStartPhase, dataBitPhase_le (show s.edgeCounter.val ≤ 15 by omega), finalisePhase, ackPhase,
      counterPhase, cntinc_eq, sampledByte]

/-- Index 16: the ACK slot (R145). -/
theorem sclStep_ack {s : State} (rise : Bool) (hc : s.edgeCounter.val = 16) :
    sclStep rise s = { s with sdaLow := s.needAck, needAck := false, edgeCounter := nextIndex s.edgeCounter } := by
  simp [sclStep, byteStartPhase, dataBitPhase, finalisePhase, ackPhase, counterPhase, hc, ackslot_eq, cntinc_eq]

/-- Index 17: the counter wraps and nothing else happens (R130). -/
theorem sclStep_wrap {s : State} (rise : Bool) (hc : s.edgeCounter.val = 17) :
    sclStep rise s = { s with edgeCounter := 0 } := by
  simp [sclStep, byteStartPhase, dataBitPhase, finalisePhase, ackPhase, counterPhase, hc, cntwrap_eq]

/-- The counter after a SCL step: the next index, 17 followed by 0. -/
theorem sclStep_edgeCounter (rise : Bool) (s : State) :
    (sclStep rise s).edgeCounter.val = if s.edgeCounter.val = 17 then 0 else s.edgeCounter.val + 1 := by
  unfold sclStep counterPhase
  split
  · rfl
  · rename_i h
    exact nextIndex_val h

end Sys2Proof.Machine
end

