-- ==== Sys2Proof/Laws/Step.lean ====
section
/-! SUPPORT. What a step can do, said once: the effect of the operation its word selects, and the clock edge. -/

namespace Sys2Proof.Machine

/-- The effect of a level-1 operation on the latched state. -/
def opEffect : Level1Op → State → State
  | .reset, s => s.resetRegisters
  | .hold, s => s
  | .sclf, s => sclStep false s
  | .sclfIgn, s => s
  | .sclr, s => sclStep true s
  | .sclrIgn, s => s
  | .start, s => s.startHandling
  | .rstart, s => s.startHandling
  | .sdafIgn, s => s
  | .stop, s => s.dropBus.appStop
  | .stopIgn, s => s
  | .sdarIgn, s => s
  | .nop, s => s

theorem exec_instrOf (op : Level1Op) (f : OpwFields) (s : State) :
    exec (instrOf op f) s = .next (opEffect op s) := by
  cases op <;> rfl

/-- An event has the effect of the operation its word selects. -/
theorem runLatched_op {s : State} {op : Level1Op} (h : level1Op s.opw = some op) :
    runLatched s = .next (opEffect op s) := by
  rw [runLatched_eq s h, exec_instrOf]

/-- A step: entry, the effect of the selected operation, the clock edge. -/
theorem step_op {s : State} {op : Level1Op} (h : level1Op s.latched.opw = some op) :
    step s = .next (finishStep s (opEffect op s.latched) s.nextStimulus) := by
  rw [step, runStep, runLatched_op h, onNext_next]

/-- Everything a step can do: some operation is selected, and the next state is its effect after the clock edge. -/
theorem step_cases {s t : State} (h : step s = .next t) :
    ∃ op, level1Op s.latched.opw = some op ∧ t = finishStep s (opEffect op s.latched) s.nextStimulus := by
  obtain ⟨op, ho⟩ := Option.isSome_iff_exists.mp (level1Op_isSome s.latched.opw)
  rw [step_op ho] at h
  exact ⟨op, ho, (Host.Outcome.next.inj h).symm⟩

/-- The fields of a state that the clock edge leaves alone. -/
theorem finishStep_eq (pre post : State) (x : Stimulus) :
    ∃ a b c d e f, finishStep pre post x =
      { post with sclMeta := a, sclSync := b, sclPrev := c, sdaMeta := d, sdaSync := e, sdaPrev := f } := by
  cases x with
  | event e => exact ⟨_, _, _, _, _, _, rfl⟩
  | cycle c =>
    by_cases h : c.rst
    · exact ⟨post.sclMeta, post.sclSync, post.sclPrev, post.sdaMeta, post.sdaSync, post.sdaPrev, by
        simp [finishStep, clockEdge, h]⟩
    · exact ⟨_, _, _, _, _, _, by simp only [finishStep, clockEdge, h]; rfl⟩
  | busCycle c =>
    by_cases h : c.rst
    · exact ⟨post.sclMeta, post.sclSync, post.sclPrev, post.sdaMeta, post.sdaSync, post.sdaPrev, by
        simp [finishStep, clockEdge, State.onBus, h]⟩
    · exact ⟨_, _, _, _, _, _, by simp only [finishStep, clockEdge, State.onBus, h]; rfl⟩

end Sys2Proof.Machine
end

