-- ==== Sys2Proof/Tests/Slice0.lean ====
section
/-! SUPPORT. Tests, and a witness for every statement that has hypotheses. Expected results are the spec's: the vectors V<n>
and CV<n> of spec/95_test_vectors.md, and words written out from R61 to R64. -/

open Sys2Proof Sys2Proof.Machine

namespace Sys2Proof.Tests

/-! ## Helpers -/

/-- A state as the vectors write one. -/
def st (ps : ProtocolState) (c : EdgeIndex) (nA bS bR : Bool) (aB pT : Byte) (sL : Bool) : State :=
  { State.reset with
    protocolState := ps, edgeCounter := c, needAck := nA, busStarted := bS, busRestarted := bR, activeByte := aB,
    pendingTxByte := pT, sdaLow := sL }

/-- The synchroniser columns of the cycle vectors. -/
def withSync (s : State) (a b c d e f : Bool) : State :=
  { s with sclMeta := a, sclSync := b, sclPrev := c, sdaMeta := d, sdaSync := e, sdaPrev := f }

/-- The event whose operation word is `w`, with the inputs `addr`, `ack` and `tx` of the vectors. -/
def wordEvent (w : Opw) (addr : BusAddr) (ack : Bool) (tx : Byte) : EventIn :=
  let f := unpackOpw w
  { rst := f.rst, enable := f.enable, flags := f.flags, sclLevel := f.sclLevel, sdaLevel := f.tail.sdaLevel,
    busAddr := addr, rxAck := ack, txData := tx }

/-- A vector: before the event the operation word of the state is the one given, and the step leaves the state and
the outputs given. -/
def stepGives (s : State) (w : Opw) (addr : BusAddr) (ack : Bool) (tx : Byte) (t : State) (o : Outputs) : Bool :=
  let e := wordEvent w addr ack tx
  (s.given e).latched.opw == w &&
    decide (nextState? (step (s.given e)) = some { t with inp := e, out := o, freeIndex := 1 })

/-- A clock cycle with these ports and `bus_addr = 0x37`. -/
def clk (rst enable scl sda : Bool) : CycleIn :=
  { rst := rst, enable := enable, sclPin := if scl then .high else .low, sdaPin := if sda then .high else .low,
    busAddr := 0x37, rxAck := true, txData := 0xFF }

/-- A row of a cycle vector: the operation word in the cycle and the registers after the edge. -/
def cycleGives (s : State) (c : CycleIn) (w : Opw) (t : State) : Bool :=
  let g := { s with script := [.busCycle c] }
  g.latched.opw == w &&
    decide ((nextState? (step g)).map (fun u => { u with inp := noInput, freeIndex := 0 }) = some t)

/-- A small state in a received byte, and others the witnesses use. -/
def rx (c : EdgeIndex) : State := st .receiving c false true false 0 0 false
def tx (c : EdgeIndex) : State := st .transmitting c false true false 0x6F 0x54 false
def ad (c : EdgeIndex) : State := st .addressPhase c false true false 0 0 false

/-- The answers of the witnesses' events. -/
def ans : Answers := { busAddr := 0x37, rxAck := true, txData := 0xA5 }

/-- Some tail of an operation word. -/
def tl : OpwTail := ⟨.receiving, true, 17⟩

/-! ## Well-formedness: ill-formed terms are refused -/

theorem test_wf_sclf_index18 : (Instr.sclf false false false false ⟨.receiving, false, 18⟩).wellFormed = false := by
  decide
theorem test_wf_sclr_index31 : (Instr.sclr true false false ⟨.transmitting, true, 31⟩).wellFormed = false := by decide
theorem test_wf_b0rel_receiving : (Instr.b0rel false .receiving).wellFormed = false := by decide
theorem test_wf_b0rel_transmitting : (Instr.b0rel true .transmitting).wellFormed = false := by decide
theorem test_wf_sclf_index17 : (Instr.sclf false false false false ⟨.receiving, false, 17⟩).wellFormed = true := by
  decide

/-! ## Decoding, one word per row

OPW (R61): rst, enable, busStarted, sclLevel, F[3:0], state[1:0], sdaLevel, counter[4:0]. MOW (R62): rise, state[1:0],
counter[4:0]. Each word is written field by field. -/

theorem test_dec_reset : decode (.opw 0b1_1_1_0_1000_11_0_00101) =
    .ok (.reset true true false 0b1000 ⟨.transmitting, false, 5⟩) := by rfl
theorem test_dec_hold : decode (.opw 0b0_0_1_1_0010_11_0_00100) =
    .ok (.hold true true 0b0010 ⟨.transmitting, false, 4⟩) := by rfl
theorem test_dec_sclf : decode (.opw 0b0_1_1_0_1010_01_0_00100) =
    .ok (.sclf false false true false ⟨.addressPhase, false, 4⟩) := by rfl
theorem test_dec_sclfIgn : decode (.opw 0b0_1_0_0_1001_00_1_00011) =
    .ok (.sclfIgn false false false true ⟨.idle, true, 3⟩) := by rfl
theorem test_dec_sclr : decode (.opw 0b0_1_1_1_0101_01_1_00101) =
    .ok (.sclr true false true ⟨.addressPhase, true, 5⟩) := by rfl
theorem test_dec_sclrIgn : decode (.opw 0b0_1_0_1_0100_00_1_10000) =
    .ok (.sclrIgn true false false ⟨.idle, true, 16⟩) := by rfl
theorem test_dec_start : decode (.opw 0b0_1_0_1_0011_00_0_00011) = .ok (.start true ⟨.idle, false, 3⟩) := by rfl
theorem test_dec_rstart : decode (.opw 0b0_1_1_1_0010_01_0_00111) =
    .ok (.rstart false ⟨.addressPhase, false, 7⟩) := by rfl
theorem test_dec_sdafIgn : decode (.opw 0b0_1_1_0_0010_10_0_01001) =
    .ok (.sdafIgn true false ⟨.receiving, false, 9⟩) := by rfl
theorem test_dec_stop : decode (.opw 0b0_1_1_1_0001_10_1_10000) = .ok (.stop ⟨.receiving, true, 16⟩) := by rfl
theorem test_dec_stopIgn : decode (.opw 0b0_1_0_1_0001_00_1_10000) = .ok (.stopIgn ⟨.idle, true, 16⟩) := by rfl
theorem test_dec_sdarIgn : decode (.opw 0b0_1_1_0_0001_10_1_00001) =
    .ok (.sdarIgn true ⟨.receiving, true, 1⟩) := by rfl
theorem test_dec_nop : decode (.opw 0b0_1_1_0_0000_10_1_00101) =
    .ok (.nop true false ⟨.receiving, true, 5⟩) := by rfl
theorem test_dec_sclf_index18 : decode (.opw 0b0_1_1_0_1000_10_0_10010) = .error .unreachableIndex := by rfl
theorem test_dec_b0rel : decode (.mow .byteStart 0b1_01_00000) = .ok (.b0rel true .addressPhase) := by rfl
theorem test_dec_b0relRx : decode (.mow .byteStart 0b0_10_00000) = .ok (.b0relRx false) := by rfl
theorem test_dec_b0txld : decode (.mow .byteStart 0b1_11_00000) = .ok (.b0txld true) := by rfl
theorem test_dec_sampleAddr : decode (.mow .dataBit 0b1_01_01101) = .ok (.sampleAddr 13) := by rfl
theorem test_dec_sampleRx : decode (.mow .dataBit 0b1_10_00001) = .ok (.sampleRx 1) := by rfl
theorem test_dec_txbit : decode (.mow .dataBit 0b0_11_01110) = .ok (.txbit 14) := by rfl
theorem test_dec_finrx : decode (.mow .finalise 0b1_10_01111) = .ok (.finrx true) := by rfl
theorem test_dec_finaddr : decode (.mow .finalise 0b0_01_01111) = .ok (.finaddr false) := by rfl
theorem test_dec_ackslot : decode (.mow .ackSlot 0b0_11_10000) = .ok (.ackslot false .transmitting) := by rfl
theorem test_dec_cntinc : decode (.mow .counter 0b1_00_01010) = .ok (.cntinc true .idle 10) := by rfl
theorem test_dec_cntincAck : decode (.mow .counter 0b1_10_10000) = .ok (.cntincAck true .receiving) := by rfl
theorem test_dec_cntwrap : decode (.mow .counter 0b1_11_10001) = .ok (.cntwrap true .transmitting) := by rfl
theorem test_dec_no_row : decode (.mow .dataBit 0b0_01_00011) = .error .noRow := by rfl

/-! ## One step on a small state -/

/-- V69 of spec/95_test_vectors.md: RESET overrides SCL_FALL. -/
theorem test_reset_V69 :
    stepGives (st .transmitting 5 false true true 0x6F 0x40 true) 0xE8C5 0x37 true 0xFF
      (st .idle 0 false false false 0x00 0x00 false) ⟨false, false, false, false, 0, false, false⟩ = true := by decide

/-- V70 of spec/95_test_vectors.md: RESET overrides HOLD and a STOP condition. -/
theorem test_reset_V70 :
    stepGives (st .receiving 16 true true false 0x00 0x00 false) 0xB1B0 0x37 true 0xFF
      (st .idle 0 false false false 0x00 0x00 false) ⟨false, false, false, false, 0, false, false⟩ = true := by decide

/-- V3 of spec/95_test_vectors.md: a falling edge lost. -/
theorem test_hold_V3 :
    stepGives (st .addressPhase 2 false true false 0x00 0x00 false) 0x2842 0x37 true 0xFF
      (st .addressPhase 2 false true false 0x00 0x00 false) ⟨false, false, false, false, 0, false, false⟩ = true := by decide

/-- V4 of spec/95_test_vectors.md: SDA stays driven. -/
theorem test_hold_V4 :
    stepGives (st .transmitting 4 false true false 0x00 0x40 true) 0x32C4 0x37 true 0xFF
      (st .transmitting 4 false true false 0x00 0x40 true) ⟨false, false, false, false, 0, false, false⟩ = true := by decide

/-- V10 of spec/95_test_vectors.md: the SDA flag is dropped. -/
theorem test_sclf_V10 :
    stepGives (st .addressPhase 4 false true false 0x01 0x00 false) 0x6A44 0x37 true 0xFF
      (st .addressPhase 5 false true false 0x01 0x00 false) ⟨false, false, false, false, 0, false, false⟩ = true := by decide

/-- V16 of spec/95_test_vectors.md: every flag set: SCL_FALL wins, and no sample. -/
theorem test_sclf_V16 :
    stepGives (st .receiving 6 false true false 0x05 0x00 false) 0x7FA6 0x37 true 0xFF
      (st .receiving 7 false true false 0x05 0x00 false) ⟨false, false, false, false, 0, false, false⟩ = true := by decide

/-- V5 of spec/95_test_vectors.md: the counter does not move in Idle. -/
theorem test_sclfIgn_V5 :
    stepGives (st .idle 16 false false false 0x00 0x00 false) 0x4830 0x37 true 0xFF
      (st .idle 16 false false false 0x00 0x00 false) ⟨false, false, false, false, 0, false, false⟩ = true := by decide

/-- V13 of spec/95_test_vectors.md: no fall-through to the SDA flag. -/
theorem test_sclfIgn_V13 :
    stepGives (st .idle 3 false false false 0x00 0x00 false) 0x4923 0x37 true 0xFF
      (st .idle 3 false false false 0x00 0x00 false) ⟨false, false, false, false, 0, false, false⟩ = true := by decide

/-- V11 of spec/95_test_vectors.md: the sample is the new SDA level; no STOP. -/
theorem test_sclr_V11 :
    stepGives (st .addressPhase 5 false true false 0x01 0x00 false) 0x7565 0x37 true 0xFF
      (st .addressPhase 6 false true false 0x03 0x00 false) ⟨false, false, false, false, 0, false, false⟩ = true := by decide

/-- V46 of spec/95_test_vectors.md: index 15 in Transmitting: the counter alone. -/
theorem test_sclr_V46 :
    stepGives (st .transmitting 15 false true false 0x00 0x00 false) 0x74EF 0x37 true 0xFF
      (st .transmitting 16 false true false 0x00 0x00 false) ⟨false, false, false, false, 0, false, false⟩ = true := by decide

/-- V6 of spec/95_test_vectors.md: in Idle. -/
theorem test_sclrIgn_V6 :
    stepGives (st .idle 16 false false false 0x00 0x00 false) 0x5430 0x37 true 0xFF
      (st .idle 16 false false false 0x00 0x00 false) ⟨false, false, false, false, 0, false, false⟩ = true := by decide

/-- V14 of spec/95_test_vectors.md: SDA_FALL before SDA_RISE. -/
theorem test_start_V14 :
    stepGives (st .idle 3 false false false 0x00 0x00 false) 0x5303 0x37 true 0xFF
      (st .addressPhase 0 false true false 0x00 0x00 false) ⟨false, false, false, false, 0, false, false⟩ = true := by decide

/-- V18 of spec/95_test_vectors.md: stale registers are overwritten, `pendingTxByte` is kept. -/
theorem test_start_V18 :
    stepGives (st .idle 16 true false false 0x70 0xFE false) 0x5210 0x37 true 0xFF
      (st .addressPhase 0 false true false 0x00 0xFE false) ⟨false, false, false, false, 0, false, false⟩ = true := by decide

/-- V20 of spec/95_test_vectors.md: in Transmitting. -/
theorem test_rstart_V20 :
    stepGives (st .transmitting 1 false true false 0x6F 0xFE false) 0x72C1 0x37 true 0xFF
      (st .addressPhase 0 false true true 0x00 0xFE false) ⟨false, false, false, false, 0, false, false⟩ = true := by decide

/-- V22 of spec/95_test_vectors.md: inside a restarted address frame. -/
theorem test_rstart_V22 :
    stepGives (st .addressPhase 7 false true true 0x03 0x00 false) 0x7247 0x37 true 0xFF
      (st .addressPhase 0 false true true 0x00 0x00 false) ⟨false, false, false, false, 0, false, false⟩ = true := by decide

/-- V7 of spec/95_test_vectors.md: the echo of the ACK. -/
theorem test_sdafIgn_V7 :
    stepGives (st .receiving 17 false true false 0x00 0x00 true) 0x6291 0x37 true 0xFF
      (st .receiving 17 false true false 0x00 0x00 true) ⟨false, false, false, false, 0, false, false⟩ = true := by decide

/-- V28 of spec/95_test_vectors.md: not a START with SCL low. -/
theorem test_sdafIgn_V28 :
    stepGives (st .receiving 9 false true false 0x00 0x00 false) 0x6289 0x37 true 0xFF
      (st .receiving 9 false true false 0x00 0x00 false) ⟨false, false, false, false, 0, false, false⟩ = true := by decide

/-- V24 of spec/95_test_vectors.md: in a restarted transaction. -/
theorem test_stop_V24 :
    stepGives (st .transmitting 2 false true true 0x6F 0xFE false) 0x71E2 0x37 true 0xFF
      (st .idle 2 false false false 0x6F 0xFE false) ⟨false, false, false, false, 0, false, true⟩ = true := by decide

/-- V27 of spec/95_test_vectors.md: the pin is not released. -/
theorem test_stop_V27 :
    stepGives (st .receiving 17 false true false 0x00 0x00 true) 0x71B1 0x37 true 0xFF
      (st .idle 17 false false false 0x00 0x00 true) ⟨false, false, false, false, 0, false, true⟩ = true := by decide

/-- V9 of spec/95_test_vectors.md: in Idle. -/
theorem test_stopIgn_V9 :
    stepGives (st .idle 16 false false false 0x00 0x00 false) 0x5130 0x37 true 0xFF
      (st .idle 16 false false false 0x00 0x00 false) ⟨false, false, false, false, 0, false, false⟩ = true := by decide

/-- V8 of spec/95_test_vectors.md: master data. -/
theorem test_sdarIgn_V8 :
    stepGives (st .receiving 1 false true false 0x00 0x00 false) 0x61A1 0x37 true 0xFF
      (st .receiving 1 false true false 0x00 0x00 false) ⟨false, false, false, false, 0, false, false⟩ = true := by decide

/-- V29 of spec/95_test_vectors.md: not a STOP with SCL low. -/
theorem test_sdarIgn_V29 :
    stepGives (st .receiving 9 false true false 0x00 0x00 false) 0x61A9 0x37 true 0xFF
      (st .receiving 9 false true false 0x00 0x00 false) ⟨false, false, false, false, 0, false, false⟩ = true := by decide

/-- V1 of spec/95_test_vectors.md: in the reset state. -/
theorem test_nop_V1 :
    stepGives (st .idle 0 false false false 0x00 0x00 false) 0x5020 0x37 true 0xFF
      (st .idle 0 false false false 0x00 0x00 false) ⟨false, false, false, false, 0, false, false⟩ = true := by decide

/-- V2 of spec/95_test_vectors.md: in a frame. -/
theorem test_nop_V2 :
    stepGives (st .receiving 5 false true false 0x12 0x00 false) 0x60A5 0x37 true 0xFF
      (st .receiving 5 false true false 0x12 0x00 false) ⟨false, false, false, false, 0, false, false⟩ = true := by decide

/-- V30 of spec/95_test_vectors.md: after START. -/
theorem test_b0rel_V30 :
    stepGives (st .addressPhase 0 false true false 0x00 0x00 false) 0x6840 0x37 true 0xFF
      (st .addressPhase 1 false true false 0x00 0x00 false) ⟨false, false, false, false, 0, false, false⟩ = true := by decide

/-- V31 of spec/95_test_vectors.md: the address ACK is released. -/
theorem test_b0relRx_V31 :
    stepGives (st .receiving 0 false true false 0x6E 0x00 true) 0x6880 0x37 true 0xFF
      (st .receiving 1 false true false 0x00 0x00 false) ⟨false, false, false, false, 0, false, false⟩ = true := by decide

/-- V35 of spec/95_test_vectors.md: B0REL, then the sample into the cleared register. -/
theorem test_b0relRx_V35 :
    stepGives (st .receiving 0 false true false 0x6E 0x00 true) 0x74A0 0x37 true 0xFF
      (st .receiving 1 false true false 0x01 0x00 false) ⟨false, false, false, false, 0, false, false⟩ = true := by decide

/-- V32 of spec/95_test_vectors.md: load, then bit 7. -/
theorem test_b0txld_V32 :
    stepGives (st .transmitting 0 false true false 0x6F 0x00 true) 0x68C0 0x37 true 0xAA
      (st .transmitting 1 false true false 0x6F 0x54 false) ⟨false, false, false, false, 0, true, false⟩ = true := by decide

/-- V36 of spec/95_test_vectors.md: index 0 on a rising edge: no bit is driven. -/
theorem test_b0txld_V36 :
    stepGives (st .transmitting 0 false true false 0x00 0x00 false) 0x74E0 0x37 true 0xC3
      (st .transmitting 1 false true false 0x00 0xC3 false) ⟨false, false, false, false, 0, true, false⟩ = true := by decide

/-- V12 of spec/95_test_vectors.md: a 0. -/
theorem test_sampleAddr_V12 :
    stepGives (st .addressPhase 5 false true false 0x01 0x00 false) 0x7645 0x37 true 0xFF
      (st .addressPhase 6 false true false 0x02 0x00 false) ⟨false, false, false, false, 0, false, false⟩ = true := by decide

/-- V38 of spec/95_test_vectors.md: a 1. -/
theorem test_sampleAddr_V38 :
    stepGives (st .addressPhase 3 false true false 0x00 0x00 false) 0x7463 0x37 true 0xFF
      (st .addressPhase 4 false true false 0x01 0x00 false) ⟨false, false, false, false, 0, false, false⟩ = true := by decide

/-- V39 of spec/95_test_vectors.md: 0 into 0x55. -/
theorem test_sampleRx_V39 :
    stepGives (st .receiving 13 false true false 0x55 0x00 false) 0x748D 0x37 true 0xFF
      (st .receiving 14 false true false 0xAA 0x00 false) ⟨false, false, false, false, 0, false, false⟩ = true := by decide

/-- V40 of spec/95_test_vectors.md: bit 7 is dropped. -/
theorem test_sampleRx_V40 :
    stepGives (st .receiving 13 false true false 0xFF 0x00 false) 0x74AD 0x37 true 0xFF
      (st .receiving 14 false true false 0xFF 0x00 false) ⟨false, false, false, false, 0, false, false⟩ = true := by decide

/-- V44 of spec/95_test_vectors.md: a 1. -/
theorem test_txbit_V44 :
    stepGives (st .transmitting 4 false true false 0x00 0xA8 true) 0x68C4 0x37 true 0xFF
      (st .transmitting 5 false true false 0x00 0x50 false) ⟨false, false, false, false, 0, false, false⟩ = true := by decide

/-- V47 of spec/95_test_vectors.md: a shifted-in 0 at index 15. -/
theorem test_txbit_V47 :
    stepGives (st .transmitting 15 false true false 0x00 0x00 false) 0x68EF 0x37 true 0xFF
      (st .transmitting 16 false true false 0x00 0x00 true) ⟨false, false, false, false, 0, false, false⟩ = true := by decide

/-- V61 of spec/95_test_vectors.md: the application refuses. -/
theorem test_finrx_V61 :
    stepGives (st .receiving 15 false true false 0x7F 0x00 false) 0x74AF 0x37 false 0xFF
      (st .receiving 16 false true false 0xFF 0x00 false) ⟨false, false, false, true, 0xFF, false, false⟩ = true := by decide

/-- V62 of spec/95_test_vectors.md: bit order of 0x80. -/
theorem test_finrx_V62 :
    stepGives (st .receiving 15 false true false 0x40 0x00 false) 0x748F 0x37 true 0xFF
      (st .receiving 16 true true false 0x80 0x00 false) ⟨false, false, false, true, 0x80, false, false⟩ = true := by decide

/-- V53 of spec/95_test_vectors.md: match after a repeated START. -/
theorem test_finaddr_V53 :
    stepGives (st .addressPhase 15 false true true 0x37 0x00 false) 0x746F 0x37 true 0xFF
      (st .transmitting 16 true true true 0x6F 0x00 false) ⟨true, true, true, false, 0, false, false⟩ = true := by decide

/-- V59 of spec/95_test_vectors.md: mismatch without the eighth sample. -/
theorem test_finaddr_V59 :
    stepGives (st .addressPhase 15 false true false 0x37 0x00 false) 0x684F 0x37 true 0xFF
      (st .idle 16 false false false 0x37 0x00 false) ⟨false, false, false, false, 0, false, false⟩ = true := by decide

/-- V63 of spec/95_test_vectors.md: acknowledge. -/
theorem test_ackslot_V63 :
    stepGives (st .receiving 16 true true false 0x00 0x00 false) 0x68B0 0x37 true 0xFF
      (st .receiving 17 false true false 0x00 0x00 true) ⟨false, false, false, false, 0, false, false⟩ = true := by decide

/-- V66 of spec/95_test_vectors.md: release. -/
theorem test_ackslot_V66 :
    stepGives (st .transmitting 16 false true false 0x00 0x00 true) 0x68D0 0x37 true 0xFF
      (st .transmitting 17 false true false 0x00 0x00 false) ⟨false, false, false, false, 0, false, false⟩ = true := by decide

/-- V41 of spec/95_test_vectors.md: falling edge in the window of a receive state. -/
theorem test_cntinc_V41 :
    stepGives (st .addressPhase 2 false true false 0x01 0x00 false) 0x6862 0x37 true 0xFF
      (st .addressPhase 3 false true false 0x01 0x00 false) ⟨false, false, false, false, 0, false, false⟩ = true := by decide

/-- V67 of spec/95_test_vectors.md: index 16 on a rising edge. -/
theorem test_cntincAck_V67 :
    stepGives (st .receiving 16 true true false 0x00 0x00 false) 0x74B0 0x37 true 0xFF
      (st .receiving 17 false true false 0x00 0x00 true) ⟨false, false, false, false, 0, false, false⟩ = true := by decide

/-- V48 of spec/95_test_vectors.md: the ACK stays driven. -/
theorem test_cntwrap_V48 :
    stepGives (st .receiving 17 false true false 0x00 0x00 true) 0x7491 0x37 true 0xFF
      (st .receiving 0 false true false 0x00 0x00 true) ⟨false, false, false, false, 0, false, false⟩ = true := by decide

/-- V50 of spec/95_test_vectors.md: the ACK of the master is not sampled. -/
theorem test_cntwrap_V50 :
    stepGives (st .transmitting 17 false true false 0x00 0x00 false) 0x74D1 0x37 true 0xFF
      (st .transmitting 0 false true false 0x00 0x00 false) ⟨false, false, false, false, 0, false, false⟩ = true := by decide

/-! ## One clock cycle on a small state -/

/-- CV1, cycle 8: the START that the pins of cycle 6 make. -/
theorem test_cycle_CV1_8 :
    cycleGives (withSync State.reset true true true false false true) (clk false true true false) 0x5200
      (withSync (st .addressPhase 0 false true false 0 0 false) true true true false false false) = true := by decide

/-- CV3, cycle 3: the false START of the reset values is lost in HOLD. -/
theorem test_cycle_CV3_3 :
    cycleGives (withSync State.reset true true true false false true) (clk false false true false) 0x1200
      (withSync State.reset true true true false false false) = true := by decide

/-- CV4, cycle 3: the ACK is driven, and the pin sampled by the same edge is still high. -/
theorem test_cycle_CV4_3 :
    cycleGives (withSync (st .receiving 16 true true false 1 0 false) false false true true true true)
      (clk false true false true) 0x68B0
      (withSync (st .receiving 17 false true false 1 0 true) false false false true true true) = true := by decide

/-- CV4, cycle 6: the echo of the ACK, with the wired-AND keeping SDA low. -/
theorem test_cycle_CV4_6 :
    cycleGives (withSync (st .receiving 17 false true false 1 0 true) false false false false false true)
      (clk false true false true) 0x6291
      (withSync (st .receiving 17 false true false 1 0 true) false false false false false false) = true := by decide

/-- CV5, cycle 3: SCL and SDA rise together: the sample is the new level. -/
theorem test_cycle_CV5_3 :
    cycleGives (withSync (st .addressPhase 5 false true false 1 0 false) true true false true true false)
      (clk false true true true) 0x7565
      (withSync (st .addressPhase 6 false true false 3 0 false) true true true true true true) = true := by decide

/-! ## Macros -/

/-- P1, events 24 to 45 of spec/96_program_traces.md: WBYTE(0x01) after an ACK: the engine's echo, then the master's
change, in one SCL-low phase. -/
theorem test_wbyte_P1 :
    wbyte false #v[true, false, false, false, false, false, false, false, false] 0x01 false =
      [.f false, .dPlus, .dMinus, .r false, .f false, .r false, .f false, .r false, .f false, .r false,
       .f false, .r false, .f false, .r false, .f false, .r false, .f false, .dPlus, .r true,
       .f true, .dMinus, .r false] := by decide

/-- P2, events 24 to 51 of spec/96_program_traces.md: RBYTE of 0xAA with the master's ACK. -/
theorem test_rbyte_P2 :
    rbyte false #v[true, false, true, false, true, false, true, false, true] 0xAA false =
      [.f false, .dPlus, .r true, .f true, .dMinus, .r false, .f false, .dPlus, .r true, .f true, .dMinus, .r false,
       .f false, .dPlus, .r true, .f true, .dMinus, .r false, .f false, .dPlus, .r true, .f true, .dMinus, .r false,
       .f false, .dPlus, .dMinus, .r false] := by decide

/-- P1, events 68 to 72 of spec/96_program_traces.md: STOPSEQ after an ACK. -/
theorem test_stopSeq_P1 : stopSeq false true = [.f false, .dPlus, .dMinus, .r false, .p] := by decide

/-! ## Words placed for the host -/

/-- START placed after reset: the next step enters AddressPhase. -/
theorem test_fetch_start :
    (nextState? (step (State.reset.withFetchWord 16 0x5200))).map (·.protocolState) = some .addressPhase := by decide

/-- The micro-operation word of TXBIT at index 4, placed after reset: the next step is the SCL step that performs it. -/
theorem test_fetch_txbit :
    (nextState? (step (State.reset.withFetchWord 8 0x64))).map (fun t => (t.sdaLow, t.edgeCounter)) =
      some (true, 5) := by decide

/-! ## Witnesses: every statement's hypotheses are met, at the ends of their ranges -/

theorem wit_EntryLatchesTheStimulus :
    (∃ e rest, ({ State.reset with script := [.event noInput] } : State).script = .event e :: rest) ∧
    (∃ c rest, ({ State.reset with script := [.cycle (clk true true true true)] } : State).script =
      .cycle c :: rest) ∧
    (∃ c rest, ({ tx 1 with script := [.busCycle (clk false true true true)] } : State).script =
      .busCycle c :: rest) :=
  ⟨⟨_, _, rfl⟩, ⟨_, _, rfl⟩, ⟨_, _, rfl⟩⟩

theorem wit_DecodeEncodeAgree :
    (Instr.sclr true true true ⟨.transmitting, true, 17⟩).wellFormed = true ∧
    (Instr.b0rel true .addressPhase).wellFormed = true := by decide

theorem wit_EncodeDecodeAgree :
    decode (.opw 0x6891) = .ok (.sclf false false false false ⟨.receiving, false, 17⟩) ∧
    decode (.mow .finalise 0xAF) = .ok (.finaddr true) := ⟨by rfl, by rfl⟩

theorem wit_OneRowPerPhase : 18 ≤ (mowIndex 0x12).toNat ∧ 18 ≤ (mowIndex 0xFF).toNat := by decide

theorem wit_PlacedWordIsFetched :
    (decode (.opw 0x7491) = .ok (.sclr true false false ⟨.receiving, false, 17⟩) ∧
      (unpackOpw 0x7491).tail.indexOk = true) ∧
    decodeTableWord 8 0x6F = some (.txbit 15) ∧ decodeTableWord 8 0x11 = some (.cntwrap false .idle) :=
  ⟨⟨by rfl, by decide⟩, by decide, by decide⟩

theorem wit_words :
    (0x8000 : Opw) &&& 0x8000 = 0x8000 ∧ (0xFFFF : Opw) &&& 0x8000 = 0x8000 ∧
    (0x3FFF : Opw) &&& 0xC000 = 0x0000 ∧
    (0x6FFF : Opw) &&& 0xE800 = 0x6800 ∧ (0x67FF : Opw) &&& 0xEC00 = 0x6400 ∧
    (0x70FF : Opw) &&& 0xCF00 = 0x4000 ∧
    (0x5FFF : Opw) &&& 0xE800 = 0x4800 ∧ (0x57FF : Opw) &&& 0xEC00 = 0x4400 ∧
    (0x63FF : Opw) &&& 0xDE00 = 0x4200 ∧ (0x61FF : Opw) &&& 0xDF00 = 0x4100 ∧
    (0x51FF : Opw) &&& 0xFF00 = 0x5100 ∧ (0x53FF : Opw) &&& 0xFE00 = 0x5200 ∧
    (0x73FF : Opw) &&& 0xFE00 = 0x7200 ∧ (0x71FF : Opw) &&& 0xFF00 = 0x7100 := by decide

theorem wit_HoldFreezes : (wordEvent 0x2842 0 false 0).rst = false ∧ (wordEvent 0x2842 0 false 0).enable = false := by
  decide

theorem wit_micro_words :
    (0xA0 : Mow) &&& 0x5F = 0x00 ∧ (0xC0 : Mow) &&& 0x7F = 0x40 ∧ (0xE0 : Mow) &&& 0x7F = 0x60 ∧
    (0xAF : Mow) &&& 0xF0 = 0xA0 ∧ (0xCF : Mow) &&& 0xF0 = 0xC0 ∧ (0x6F : Mow) &&& 0xF0 = 0x60 ∧
    (0xCF : Mow) &&& 0x7F = 0x4F ∧ (0xAF : Mow) &&& 0x7F = 0x2F ∧ (0xF0 : Mow) &&& 0x1F = 0x10 ∧
    (0xEF : Mow) &&& 0x10 = 0x00 ∧ (0x10 : Mow) &&& 0x1F = 0x10 ∧ (0xF1 : Mow) &&& 0x1F = 0x11 := by decide

/-- A state at the end of an address byte, with the event's `busAddr` latched. -/
def atCompare (b : Byte) : State := { ad 15 with activeByte := b, inp := wordEvent 0x744F 0x37 true 0xFF }

theorem wit_FinaddrMatchResult : (atCompare 0x6E).activeByte.extractLsb' 1 7 = (atCompare 0x6E).inp.busAddr ∧
    (atCompare 0x6F).activeByte.extractLsb' 1 7 = (atCompare 0x6F).inp.busAddr := by decide
theorem wit_FinaddrMismatchResult : (atCompare 0x70).activeByte.extractLsb' 1 7 ≠ (atCompare 0x70).inp.busAddr := by
  decide
theorem wit_AckslotResult :
    (st .receiving 16 true true false 0 0 false).needAck = true ∧ (rx 16).needAck = false := by decide

theorem wit_SdaLowWriters :
    (∃ t, exec (.txbit 15) (tx 15) = .next t) ∧ (∃ t, exec (.ackslot true .receiving) (rx 16) = .next t) ∧
    (∃ t, exec (.stop tl) (rx 16) = .next t) := ⟨⟨_, rfl⟩, ⟨_, rfl⟩, ⟨_, rfl⟩⟩
theorem wit_FrameByInstruction :
    (∃ t, exec (.start true tl) (rx 5) = .next t) ∧ Field.sdaLow ∉ mayWrite (.start true tl) ∧
    Field.synchronisers ∉ mayWrite (.sclf true false false false tl) ∧ Field.edgeCounter ∉ mayWrite (.stop tl) :=
  ⟨⟨_, rfl⟩, by decide, by decide, by decide⟩

/-- Hypotheses `step s = .next t` alone: every state meets them. -/
theorem wit_step : ∃ t, step ((rx 15).given (wordEvent 0x74AF 0x37 true 0xFF)) = .next t :=
  ⟨_, step_op (op := .sclr) (by decide)⟩

theorem wit_AtMostOneStrobe :
    ((rx 9).given (wordEvent 0x6289 0x37 true 0xFF)).nextOp ∈
      [some .reset, some .hold, some .nop, some .sclfIgn, some .sclrIgn, some .sdafIgn, some .sdarIgn,
        some .stopIgn] := by decide

theorem wit_InvariantKept :
    ∃ t, (st .receiving 16 true true true 0x55 0 false).Inv ∧
      step ((st .receiving 16 true true true 0x55 0 false).given (wordEvent 0x68B0 0x37 true 0xFF)) = .next t := by
  exact ⟨_, ⟨by decide, by decide, by decide, by decide⟩, step_op (op := .sclf) (by decide)⟩

theorem wit_QuietWhileListening :
    ((ad 15).given (wordEvent 0x744F 0x37 true 0xFF)).QuietInv ∧
    (rx 16).QuietInv ∧ (st .receiving 17 false true false 0 0 true).QuietInv :=
  ⟨⟨by decide, by decide, by decide⟩, ⟨by decide, by decide, by decide⟩, ⟨by decide, by decide, by decide⟩⟩

/-- A cycle in which SCL has fallen, at an even index; and one in which it has risen, at an odd one. -/
def fallCycle (s : State) (c : CycleIn) : State := { withSync s false false true true true true with script := [.cycle c] }
def riseCycle (s : State) (c : CycleIn) : State := { withSync s true true false true true true with script := [.cycle c] }

theorem wit_AlignmentKept :
    (fallCycle (rx 16) (clk false true false true)).nextCycle? = some (clk false true false true) ∧
    (clk false true false true).enable = true ∧ (fallCycle (rx 16) (clk false true false true)).Aligned ∧
    (clk true false false true).rst = true :=
  ⟨rfl, rfl, fun _ => by decide, rfl⟩

theorem wit_SclStepsAlternate :
    (∃ c, (fallCycle (rx 16) (clk false true false true)).nextCycle? = some c) ∧
    (fallCycle (rx 16) (clk false true false true)).Aligned ∧
    (fallCycle (rx 16) (clk false true false true)).nextOp = some .sclf ∧
    (riseCycle (rx 17) (clk false true true true)).Aligned ∧
    (riseCycle (rx 17) (clk false true true true)).nextOp = some .sclr ∧
    (fallCycle (rx 16) (clk false true false true)).Inv :=
  ⟨⟨_, rfl⟩, fun _ => by decide, by decide, fun _ => by decide, by decide,
    ⟨by decide, by decide, by decide, by decide⟩⟩

/-- The four kinds of transition of R13: START, match, mismatch, STOP (and a reset). -/
theorem wit_StateTransitionsComplete :
    (nextState? (step ((rx 2).given (wordEvent 0x7282 0x37 true 0xFF)))).map (·.protocolState) = some .addressPhase ∧
    (nextState? (step ((st .addressPhase 15 false true false 0x37 0 false).given
      (wordEvent 0x746F 0x37 true 0xFF)))).map (·.protocolState) = some .transmitting ∧
    (nextState? (step ((st .addressPhase 15 false true false 0x38 0 false).given
      (wordEvent 0x744F 0x37 true 0xFF)))).map (·.protocolState) = some .idle ∧
    (nextState? (step ((rx 2).given (wordEvent 0x71A2 0x37 true 0xFF)))).map (·.protocolState) = some .idle ∧
    (nextState? (step ((tx 5).given (wordEvent 0xE8C5 0x37 true 0xFF)))).map (·.protocolState) = some .idle := by
  decide

theorem wit_DataStatesPersist :
    (tx 17).protocolState = .transmitting ∧ (rx 16).protocolState = .receiving ∧
    ((tx 17).given (wordEvent 0x74F1 0x37 false 0xFF)).nextOp ∉
      [some .start, some .rstart, some .stop, some .reset] ∧
    ((rx 16).given (wordEvent 0x68B0 0x37 false 0xFF)).nextOp ∉
      [some .start, some .rstart, some .stop, some .reset] := by decide

theorem wit_StartRealigns :
    let e := wordEvent 0x73A7 0x37 true 0xFF
    e.rst = false ∧ e.enable = true ∧ sclFall e.flags = false ∧ sclRise e.flags = false ∧ sdaFall e.flags = true ∧
    e.sclLevel = true := by decide

theorem wit_AnswersReadOnlyInTheirEvent :
    (nextState? (step ((rx 15).given (wordEvent 0x68AF 0x37 true 0xFF)))).map (·.out.txReq) = some false ∧
    (nextState? (step ((tx 0).given (wordEvent 0x68C0 0x37 true 0xFF)))).map (·.out.rxValid) = some false := by decide

theorem wit_BusAddressReadOnlyInCompare :
    ¬ (((rx 15).given (wordEvent 0x74AF 0x37 true 0xFF)).nextIsSclStep ∧ (rx 15).edgeCounter.val = 15 ∧
      (rx 15).protocolState = .addressPhase) ∧
    ((ad 15).given (wordEvent 0x744F 0x37 true 0xFF)).nextIsSclStep ∧ (ad 15).edgeCounter.val = 15 ∧
    (ad 15).protocolState = .addressPhase :=
  ⟨fun h => absurd h.2.2 (by decide), Or.inr (by decide), rfl, rfl⟩

theorem wit_NoReadbackWhileTransmitting :
    (tx 17).protocolState = .transmitting ∧
    (sclFall (wordEvent 0x74F1 0x37 true 0xFF).flags || sclRise (wordEvent 0x74F1 0x37 true 0xFF).flags) = true := by
  decide

theorem wit_SdaEventsCarryNoData :
    ((0x4100 : Opw) &&& 0xCC00 = 0x4000 ∧ (0x4100 : Opw) &&& 0x0300 ≠ 0x0000) ∧
    ((0x73FF : Opw) &&& 0xCC00 = 0x4000 ∧ (0x73FF : Opw) &&& 0x0300 ≠ 0x0000) ∧
    (∃ t, exec (.start true tl) (rx 9) = .next t) ∧ (∃ t, exec (.rstart false tl) (tx 1) = .next t) ∧
    (∃ t, exec (.stop tl) (tx 1) = .next t) ∧ (∃ t, exec (.sdafIgn true true tl) (tx 1) = .next t) ∧
    (∃ t, exec (.stopIgn tl) (tx 1) = .next t) ∧ (∃ t, exec (.sdarIgn false tl) (tx 1) = .next t) :=
  ⟨by decide, by decide, ⟨_, rfl⟩, ⟨_, rfl⟩, ⟨_, rfl⟩, ⟨_, rfl⟩, ⟨_, rfl⟩, ⟨_, rfl⟩⟩

/-- Two states with different stale registers, before the same START. -/
theorem wit_HistoryIndependence :
    let e := wordEvent 0x5210 0x37 true 0xFF
    ((st .idle 16 true false false 0x70 0xFE true).given e).SameFuture ((st .idle 3 false false false 0 0 false).given e) ∧
    ((st .idle 16 true false false 0x70 0xFE true).given e).openPins := by
  refine ⟨⟨rfl, rfl, rfl, ⟨rfl, rfl, rfl, rfl, rfl, rfl⟩, rfl, rfl, ?_, ?_, ?_⟩, trivial⟩ <;> intro h <;> cases h

theorem wit_IdleStatesShareTheirFuture :
    (st .idle 2 false false false 0x6F 0xFE false).Inv ∧ (st .idle 16 true false false 0x70 0 true).Inv ∧
    (st .idle 2 false false false 0x6F 0xFE false).agree (st .idle 16 true false false 0x70 0 true) .synchronisers :=
  ⟨⟨by decide, by decide, by decide, by decide⟩, ⟨by decide, by decide, by decide, by decide⟩,
    ⟨rfl, rfl, rfl, rfl, rfl, rfl⟩⟩

/-- A state with a script of tokens. -/
def scripted (s : State) (ts : List Token) : State := { s with script := stimuli ans ts }

/-- The low phases of 0x01, the first with the echo of the released ACK before the master's change (P1, events 24 to
42 of spec/96_program_traces.md). -/
def phases01 : List LowPhase := ⟨true, false⟩ :: (List.replicate 6 (.once false) ++ [.once true])

theorem wit_ReceiveFrame :
    let s := scripted (rx 0) (clocks false phases01)
    s.busStarted = true ∧ s.protocolState = .receiving ∧ s.edgeCounter = 0 ∧
    phases01.map (·.level) = wireBits 0x01 ∧ s.script = stimuli ans (clocks false phases01) ++ [] := by
  refine ⟨by decide, by decide, by decide, by decide, by simp [scripted]⟩

theorem wit_AddressFrame :
    (let phases := (wireBits (addressByte 0x37 true)).map LowPhase.once
     let s := scripted (ad 0) (clocks true phases)
     s.busStarted = true ∧ s.protocolState = .addressPhase ∧ s.edgeCounter = 0 ∧
     phases.map (·.level) = wireBits (addressByte 0x37 true) ∧ s.script = stimuli ans (clocks true phases) ++ []) ∧
    (0x37 : BusAddr) = ans.busAddr ∧ (0x77 : BusAddr) ≠ ans.busAddr := by
  refine ⟨⟨by decide, by decide, by decide, by decide, by simp [scripted]⟩, by decide, by decide⟩

/-- A clock whose falling event carries one byte and whose rising event another. -/
def txClock (v w : Byte) : SclClock := ⟨true, { ans with txData := v }, false, { ans with txData := w }⟩

/-- Later events carry other bytes than the event of index 0. -/
theorem wit_TransmitFrame :
    let clocks := txClock 0xA5 0x5A :: List.replicate 7 (txClock 0x00 0xFF)
    let s : State := { tx 0 with script := clocks.flatMap SclClock.events }
    s.busStarted = true ∧ s.protocolState = .transmitting ∧ s.edgeCounter = 0 ∧
    (List.replicate 7 (txClock 0x00 0xFF)).length = 7 ∧
    s.script = clocks.flatMap SclClock.events ++ [] := by simp [tx, st]

/-- The two events of a byte's end and its ACK slot. -/
def ackEvents (s : State) : State :=
  { s with script := [.event (wordEvent 0x74AF 0x37 true 0xFF), .event (wordEvent 0x68B0 0x37 true 0xFF)] }

theorem wit_AckFidelity :
    (ackEvents (rx 15)).busStarted = true ∧ (ackEvents (rx 15)).edgeCounter = 15 ∧
    (wordEvent 0x74AF 0x37 true 0xFF).rst = false ∧ (wordEvent 0x74AF 0x37 true 0xFF).enable = true ∧
    sclRise (wordEvent 0x74AF 0x37 true 0xFF).flags = true ∧
    (wordEvent 0x68B0 0x37 true 0xFF).rst = false ∧ (wordEvent 0x68B0 0x37 true 0xFF).enable = true ∧
    sclFall (wordEvent 0x68B0 0x37 true 0xFF).flags = true ∧ (ackEvents (rx 15)).protocolState = .receiving ∧
    (ackEvents (st .addressPhase 15 false true false 0x37 0 false)).protocolState = .addressPhase ∧
    receivedAddress (ackEvents (st .addressPhase 15 false true false 0x37 0 false)).finalByte = 0x37 := by decide

theorem wit_ExtraByteReleasesAtIndex16 :
    let s := scripted (tx 0) (sclClocks (List.replicate 8 (false, true)) ++ [.f false])
    s.busStarted = true ∧ s.protocolState = .transmitting ∧ s.edgeCounter = 0 ∧ s.needAck = false ∧
    s.script = stimuli ans (sclClocks (List.replicate 8 (false, true)) ++ [.f false]) ++ [] := by
  simp [scripted, tx, st]

/-- Cycles with every kind of flag, and a reset cycle. -/
theorem wit_cycles :
    (fallCycle (rx 16) (clk false true false true)).nextCycle? = some (clk false true false true) ∧
    sclFall (fallCycle (rx 16) (clk false true false true)).detectFlags = true ∧
    sclRise (riseCycle (rx 17) (clk true true true true)).detectFlags = true ∧
    (riseCycle (rx 17) (clk true true true true)).nextCycle? = some (clk true true true true) ∧
    sdaFall (withSync (rx 0) true true true false false true).detectFlags = true ∧
    sdaRise (withSync (rx 0) true true true true true false).detectFlags = true := by
  exact ⟨rfl, by decide, by decide, rfl, by decide, by decide⟩

theorem wit_ReactionLatency :
    let s : State := { rx 0 with script := [.cycle (clk false true false true), .cycle (clk false true true true)] }
    s.script = .cycle (clk false true false true) :: .cycle (clk false true true true) :: [] ∧
    (clk false true false true).sclPin ≠ .changing ∧ (clk false true false true).sdaPin ≠ .changing := by
  exact ⟨rfl, by decide, by decide⟩

theorem wit_StartStopNeedStableScl :
    ({ withSync (rx 2) true true true false false true with script := [.cycle (clk false true true false)] } : State).nextOp =
      some .rstart ∧
    ({ withSync (rx 2) true true true true true false with script := [.cycle (clk false true true true)] } : State).nextOp =
      some .stop := by decide

theorem wit_BringUpSettles :
    let s : State := { State.reset with
      script := [.cycle (clk true false true false), .cycle (clk false false true false),
        .cycle (clk false false true false), .cycle (clk false false true false)] }
    s.script = .cycle (clk true false true false) :: .cycle (clk false false true false) ::
      .cycle (clk false false true false) :: .cycle (clk false false true false) :: [] ∧
    (∀ c ∈ [clk false false true false, clk false false true false, clk false false true false],
      c.rst = false ∧ c.enable = false ∧ c.sclPin = .high ∧ c.sdaPin = .low) := by
  refine ⟨rfl, ?_⟩
  intro c hc
  simp only [List.mem_cons, List.not_mem_nil, or_false, or_self] at hc
  subst hc
  decide

/-- SCL low for exactly five clocks, the floor of R195, at the ACK slot of a received byte. -/
def echoLevels : List Bool := [false, false, false, false, false, true, true, true, true, true, false]

theorem wit_OwnEchoNeverStartsOrStops :
    let s : State := { st .receiving 16 true true false 0x55 0 false with
      script := echoLevels.map (fun x => Stimulus.busCycle
        { rst := false, enable := true, sclPin := if x then .high else .low, sdaPin := if true then .high else .low,
          busAddr := ans.busAddr, rxAck := ans.rxAck, txData := ans.txData }) }
    s.Aligned ∧ s.sclMeta = true ∧ s.sclSync = true ∧ s.sclPrev = true ∧ s.sdaMeta = s.sdaLine true ∧
    s.sdaSync = s.sdaLine true ∧ s.sdaPrev = s.sdaLine true ∧ sclLowFloor 0 ≤ 5 ∧
    phasesAtLeast 5 5 true echoLevels = true ∧ 10 < echoLevels.length ∧ (∃ t, core.run 0 s = .next t) := by
  refine ⟨fun _ => by decide, rfl, rfl, rfl, rfl, rfl, rfl, by decide, by decide, by decide, ⟨_, rfl⟩⟩

theorem wit_LosingFlagsAreDiscarded : topFlag 0b1111 = 0b1000 ∧ topFlag 0b0011 = 0b0010 := by decide

end Sys2Proof.Tests
end

section
/-! SUPPORT. When each level-1 operation is selected, and which state a step starts from and ends in: what the proofs
about the step cite instead of the decoder and the clock edge. -/

namespace Sys2Proof.Machine

/-! ## The selection of the operation (R90 to R93) -/

/-- The table of R63 follows the order of R90, on the head of the word. -/
theorem level1Op_joinOpw_zero (h : BitVec 8) :
    level1Op (joinOpw h 0) =
      some (dispatchChoice (h.getLsbD 7) (h.getLsbD 6) (h.getLsbD 5) (h.getLsbD 4) (h.extractLsb' 0 4)) := by
  revert h; decide

/-- The table of R63 follows the order of R90. -/
theorem level1Op_packOpw_eq_dispatchChoice (f : OpwFields) :
    level1Op (packOpw f) = some (dispatchChoice f.rst f.enable f.busStarted f.sclLevel f.flags) := by
  obtain ⟨hrst, hen, hbs, hscl, hflags⟩ := packHead_fields f.rst f.enable f.busStarted f.sclLevel f.flags
  rw [level1Op_packOpw, level1Op_joinOpw_zero, hrst, hen, hbs, hscl, hflags]

/-- An event the dispatcher looks at: no reset, engine enabled (R90). -/
def liveEvent (e : EventIn) : Prop := e.rst = false ∧ e.enable = true

/-- No SCL flag is set. -/
def sclQuiet (e : EventIn) : Prop := sclFall e.flags = false ∧ sclRise e.flags = false

/-- What the event and `busStarted` are like when an operation is selected (R90 to R93). -/
def selectedWhen (busStarted : Bool) (e : EventIn) : Level1Op → Prop
  | .reset => e.rst = true
  | .hold => e.rst = false ∧ e.enable = false
  | .sclf => liveEvent e ∧ sclFall e.flags = true ∧ busStarted = true
  | .sclfIgn => liveEvent e ∧ sclFall e.flags = true ∧ busStarted = false
  | .sclr => liveEvent e ∧ sclFall e.flags = false ∧ sclRise e.flags = true ∧ busStarted = true
  | .sclrIgn => liveEvent e ∧ sclFall e.flags = false ∧ sclRise e.flags = true ∧ busStarted = false
  | .start => liveEvent e ∧ sclQuiet e ∧ sdaFall e.flags = true ∧ e.sclLevel = true ∧ busStarted = false
  | .rstart => liveEvent e ∧ sclQuiet e ∧ sdaFall e.flags = true ∧ e.sclLevel = true ∧ busStarted = true
  | .sdafIgn => liveEvent e ∧ sclQuiet e ∧ sdaFall e.flags = true ∧ e.sclLevel = false
  | .stop =>
    liveEvent e ∧ sclQuiet e ∧ sdaFall e.flags = false ∧ sdaRise e.flags = true ∧ e.sclLevel = true ∧
      busStarted = true
  | .stopIgn =>
    liveEvent e ∧ sclQuiet e ∧ sdaFall e.flags = false ∧ sdaRise e.flags = true ∧ e.sclLevel = true ∧
      busStarted = false
  | .sdarIgn =>
    liveEvent e ∧ sclQuiet e ∧ sdaFall e.flags = false ∧ sdaRise e.flags = true ∧ e.sclLevel = false
  | .nop => liveEvent e ∧ sclQuiet e ∧ sdaFall e.flags = false ∧ sdaRise e.flags = false

theorem selectedWhen_dispatchChoice (busStarted : Bool) (e : EventIn) :
    selectedWhen busStarted e (dispatchChoice e.rst e.enable busStarted e.sclLevel e.flags) := by
  unfold dispatchChoice
  split_ifs <;> simp_all [selectedWhen, liveEvent, sclQuiet]

/-- The next step's operation, by the order of R90. -/
theorem nextOp_eq (s : State) :
    s.nextOp = some (dispatchChoice s.latched.inp.rst s.latched.inp.enable s.busStarted s.latched.inp.sclLevel
      s.latched.inp.flags) :=
  level1Op_packOpw_eq_dispatchChoice s.latched.opwFields

theorem selectedWhen_of_nextOp {s : State} {op : Level1Op} (h : s.nextOp = some op) :
    selectedWhen s.busStarted s.latched.inp op := by
  rw [nextOp_eq, Option.some.injEq] at h
  exact h ▸ selectedWhen_dispatchChoice s.busStarted s.latched.inp

/-! ## The two SCL operations as one, by their edge -/

/-- SCLR for a rising edge, SCLF for a falling one (R102, R103). -/
def sclOp : Bool → Level1Op
  | false => .sclf
  | true => .sclr

@[simp] theorem opEffect_sclOp (rise : Bool) (s : State) : opEffect (sclOp rise) s = sclStep rise s := by
  cases rise <;> rfl

theorem nextIsSclStep_iff (s : State) : s.nextIsSclStep ↔ ∃ rise, s.nextOp = some (sclOp rise) := by
  simp [State.nextIsSclStep, sclOp]

/-- A SCL step is taken only in an open transaction (R92). -/
theorem busStarted_of_sclOp {s : State} {rise : Bool} (h : s.nextOp = some (sclOp rise)) : s.busStarted = true := by
  have hsel := selectedWhen_of_nextOp h
  cases rise with
  | false => obtain ⟨-, -, hopen⟩ := hsel; exact hopen
  | true => obtain ⟨-, -, -, hopen⟩ := hsel; exact hopen

/-- What the compare of an address frame looks at is `finalByte` (R140). -/
theorem sampledByte_eq_finalByte {s : State} {rise : Bool} (h : s.nextOp = some (sclOp rise)) :
    sampledByte rise .addressPhase s.activeByte s.latched.inp.sdaLevel = s.finalByte := by
  cases rise <;> simp_all [sampledByte, State.finalByte, sclOp]

/-! ## Entry changes no register (R178) -/

@[simp] theorem latched_protocolState (s : State) : s.latched.protocolState = s.protocolState := rfl
@[simp] theorem latched_busStarted (s : State) : s.latched.busStarted = s.busStarted := rfl
@[simp] theorem latched_busRestarted (s : State) : s.latched.busRestarted = s.busRestarted := rfl
@[simp] theorem latched_edgeCounter (s : State) : s.latched.edgeCounter = s.edgeCounter := rfl
@[simp] theorem latched_needAck (s : State) : s.latched.needAck = s.needAck := rfl
@[simp] theorem latched_activeByte (s : State) : s.latched.activeByte = s.activeByte := rfl
@[simp] theorem latched_pendingTxByte (s : State) : s.latched.pendingTxByte = s.pendingTxByte := rfl
@[simp] theorem latched_sdaLow (s : State) : s.latched.sdaLow = s.sdaLow := rfl
@[simp] theorem latched_sclSync (s : State) : s.latched.sclSync = s.sclSync := rfl

/-! ## The frame of a state change, field by field -/

theorem agree_refl (s : State) (f : Field) : s.agree s f := by
  cases f <;> simp [State.agree]

theorem agree_trans {s t u : State} {f : Field} (hst : s.agree t f) (htu : t.agree u f) : s.agree u f := by
  cases f <;> simp_all [State.agree]

/-- The clock edge writes the synchronisers alone (R81). -/
theorem finishStep_agree (pre post : State) (x : Stimulus) {f : Field} (hf : f ≠ .synchronisers) :
    (finishStep pre post x).agree post f := by
  obtain ⟨a, b, c, d, e, g, h⟩ := finishStep_eq pre post x
  rw [h]
  cases f with
  | synchronisers => exact absurd rfl hf
  | surroundings => exact ⟨rfl, rfl, rfl⟩
  | _ => rfl

section
variable (pre post : State) (x : Stimulus)

@[simp] theorem finishStep_protocolState : (finishStep pre post x).protocolState = post.protocolState :=
  finishStep_agree pre post x (f := .protocolState) (by decide)
@[simp] theorem finishStep_busStarted : (finishStep pre post x).busStarted = post.busStarted :=
  finishStep_agree pre post x (f := .busStarted) (by decide)
@[simp] theorem finishStep_busRestarted : (finishStep pre post x).busRestarted = post.busRestarted :=
  finishStep_agree pre post x (f := .busRestarted) (by decide)
@[simp] theorem finishStep_edgeCounter : (finishStep pre post x).edgeCounter = post.edgeCounter :=
  finishStep_agree pre post x (f := .edgeCounter) (by decide)
@[simp] theorem finishStep_needAck : (finishStep pre post x).needAck = post.needAck :=
  finishStep_agree pre post x (f := .needAck) (by decide)
@[simp] theorem finishStep_activeByte : (finishStep pre post x).activeByte = post.activeByte :=
  finishStep_agree pre post x (f := .activeByte) (by decide)
@[simp] theorem finishStep_pendingTxByte : (finishStep pre post x).pendingTxByte = post.pendingTxByte :=
  finishStep_agree pre post x (f := .pendingTxByte) (by decide)
@[simp] theorem finishStep_sdaLow : (finishStep pre post x).sdaLow = post.sdaLow :=
  finishStep_agree pre post x (f := .sdaLow) (by decide)
@[simp] theorem finishStep_out : (finishStep pre post x).out = post.out :=
  finishStep_agree pre post x (f := .outputs) (by decide)

end

/-! ## A clock cycle (R82, R83, R85) -/

@[simp] theorem sclFall_detectFlags (s : State) : sclFall s.detectFlags = (s.sclPrev && !s.sclSync) :=
  (mkFlags_bits _ _ _ _).1

@[simp] theorem sclRise_detectFlags (s : State) : sclRise s.detectFlags = (!s.sclPrev && s.sclSync) :=
  (mkFlags_bits _ _ _ _).2.1

/-- In a clock cycle the event is the edge detector's. -/
theorem latched_inp_of_cycle {s : State} {c : CycleIn} (h : s.nextCycle? = some c) :
    s.latched.inp = s.cycleEvent c := by
  unfold State.nextCycle? at h
  simp only [State.latched, enter_inp]
  split at h <;> simp_all [State.eventOf]

/-- A clock cycle ends with the clock edge. -/
theorem finishStep_of_cycle {s : State} {c : CycleIn} (h : s.nextCycle? = some c) (post : State) :
    finishStep s post s.nextStimulus = clockEdge s c post := by
  unfold State.nextCycle? at h
  split at h <;> simp_all [finishStep]

/-- The edge of a SCL step in a clock cycle is the one the samples show (R82). -/
theorem samples_of_sclOp {s : State} {c : CycleIn} {rise : Bool} (hc : s.nextCycle? = some c)
    (h : s.nextOp = some (sclOp rise)) : s.sclPrev = !rise ∧ s.sclSync = rise := by
  have hsel := selectedWhen_of_nextOp h
  rw [latched_inp_of_cycle hc] at hsel
  cases rise <;> simp_all [sclOp, selectedWhen, State.cycleEvent]

/-- Without an SCL flag the two SCL samples are equal (R82). -/
theorem sclPrev_eq_sclSync_of_sclQuiet {s : State} {c : CycleIn} (h : sclQuiet (s.cycleEvent c)) :
    s.sclPrev = s.sclSync := by
  obtain ⟨hfall, hrise⟩ := h
  cases hp : s.sclPrev <;> cases hs : s.sclSync <;> simp_all [State.cycleEvent]

end Sys2Proof.Machine
end

section
/-! SUPPORT. What each shared operation leaves unchanged, and what a SCL step does to the fields the invariants speak
of. -/

namespace Sys2Proof.Machine

/-! ## Frames of the operations: the "State written" lines -/

section
variable (s : State) {f : Field}

theorem b0rel_agree (h : f ∉ [Field.sdaLow, .activeByte]) : s.agree s.b0rel f := by
  cases f <;> simp_all [State.agree, b0rel_eq]

theorem b0txld_agree (h : f ∉ [Field.pendingTxByte, .outputs]) : s.agree s.b0txld f := by
  cases f <;> simp_all [State.agree, b0txld_eq]

theorem sample_agree (h : f ∉ [Field.activeByte]) : s.agree s.sample f := by
  cases f <;> simp_all [State.agree, sample_eq]

theorem txbit_agree (h : f ∉ [Field.sdaLow, .pendingTxByte]) : s.agree s.txbit f := by
  cases f <;> simp_all [State.agree, txbit_eq]

theorem finrx_agree (h : f ∉ [Field.needAck, .outputs]) : s.agree s.finrx f := by
  cases f <;> simp_all [State.agree, finrx_eq]

theorem finaddr_agree (h : f ∉ [Field.needAck, .protocolState, .busStarted, .busRestarted, .outputs]) :
    s.agree s.finaddr f := by
  by_cases hm : receivedAddress s.activeByte = s.inp.busAddr
  · cases f <;> simp_all [State.agree, finaddr_match hm]
  · cases f <;> simp_all [State.agree, finaddr_mismatch hm]

theorem ackslot_agree (h : f ∉ [Field.sdaLow, .needAck]) : s.agree s.ackslot f := by
  cases f <;> simp_all [State.agree, ackslot_eq]

theorem cntinc_agree (c : EdgeIndex) (h : f ∉ [Field.edgeCounter]) : s.agree (s.cntinc c) f := by
  cases f <;> simp_all [State.agree, cntinc_eq]

theorem cntwrap_agree (h : f ∉ [Field.edgeCounter]) : s.agree s.cntwrap f := by
  cases f <;> simp_all [State.agree, cntwrap_eq]

theorem resetRegisters_agree (h : f = .surroundings) : s.agree s.resetRegisters f := by
  subst h
  exact ⟨rfl, rfl, rfl⟩

theorem startHandling_agree
    (h : f ∉ [Field.busRestarted, .edgeCounter, .needAck, .activeByte, .busStarted, .protocolState]) :
    s.agree s.startHandling f := by
  cases f <;> simp_all [State.agree, State.startHandling]

theorem stop_agree (h : f ∉ [Field.protocolState, .busStarted, .busRestarted, .outputs]) :
    s.agree s.dropBus.appStop f := by
  cases f <;> simp_all [State.agree, State.dropBus, State.appStop]

end

/-! ## Frames of the phases of a SCL step (R120) -/

section
variable (c : EdgeIndex) (st : ProtocolState) (s : State) {f : Field}

theorem byteStartPhase_agree (h : f ∉ [Field.sdaLow, .activeByte, .pendingTxByte, .outputs]) :
    s.agree (byteStartPhase c st s) f := by
  unfold byteStartPhase
  split_ifs
  · exact b0rel_agree s (by simp_all)
  · exact b0txld_agree s (by simp_all)
  · exact agree_refl s f

theorem dataBitPhase_agree (rise : Bool) (h : f ∉ [Field.sdaLow, .activeByte, .pendingTxByte]) :
    s.agree (dataBitPhase c st rise s) f := by
  unfold dataBitPhase
  split_ifs
  · exact sample_agree s (by simp_all)
  · exact txbit_agree s (by simp_all)
  · exact agree_refl s f
  · exact agree_refl s f

theorem finalisePhase_agree
    (h : f ∉ [Field.needAck, .protocolState, .busStarted, .busRestarted, .outputs]) :
    s.agree (finalisePhase c st s) f := by
  unfold finalisePhase
  split_ifs
  · exact finrx_agree s (by simp_all)
  · exact finaddr_agree s h
  · exact agree_refl s f
  · exact agree_refl s f

/-- Outside the compare of an address frame the finalisation writes no control register (R141, R147). -/
theorem finalisePhase_agree_of_no_compare (hc : ¬ (c.val = 15 ∧ st = .addressPhase))
    (h : f ∉ [Field.needAck, .outputs]) : s.agree (finalisePhase c st s) f := by
  unfold finalisePhase
  split_ifs with h15 hrx haddr
  · exact finrx_agree s h
  · exact absurd ⟨h15, haddr⟩ hc
  · exact agree_refl s f
  · exact agree_refl s f

theorem ackPhase_agree (h : f ∉ [Field.sdaLow, .needAck]) : s.agree (ackPhase c s) f := by
  unfold ackPhase
  split_ifs
  · exact ackslot_agree s h
  · exact agree_refl s f

theorem counterPhase_agree (h : f ∉ [Field.edgeCounter]) : s.agree (counterPhase c s) f := by
  unfold counterPhase
  split_ifs
  · exact cntwrap_agree s h
  · exact cntinc_agree s c h

end

/-! ## What a SCL step keeps -/

/-- A field that phases 1, 2 and 5 do not write is kept by a SCL step whose phases 3 and 4 keep it. -/
theorem sclStep_agree_of_phases (rise : Bool) (s : State) {f : Field}
    (hf : f ∉ [Field.sdaLow, .activeByte, .pendingTxByte, .outputs, .edgeCounter])
    (hfin : ∀ u : State, u.agree (finalisePhase s.edgeCounter s.protocolState u) f)
    (hack : ∀ u : State, u.agree (ackPhase s.edgeCounter u) f) : s.agree (sclStep rise s) f := by
  have hstart := byteStartPhase_agree s.edgeCounter s.protocolState s (f := f) (by simp_all)
  have hbit := fun u => dataBitPhase_agree s.edgeCounter s.protocolState u rise (f := f) (by simp_all)
  have hcount := fun u => counterPhase_agree s.edgeCounter u (f := f) (by simp_all)
  exact agree_trans (agree_trans (agree_trans (agree_trans hstart (hbit _)) (hfin _)) (hack _)) (hcount _)

/-- No phase of a SCL step writes a synchroniser, the latched inputs or the script. -/
theorem sclStep_agree (rise : Bool) (s : State) {f : Field} (hf : f ∈ [Field.synchronisers, .surroundings]) :
    s.agree (sclStep rise s) f := by
  have hfin : f ∉ [Field.needAck, .protocolState, .busStarted, .busRestarted, .outputs] := by
    revert hf; cases f <;> decide
  have hother : f ∉ [Field.sdaLow, .activeByte, .pendingTxByte, .outputs, .edgeCounter] := by
    revert hf; cases f <;> decide
  exact sclStep_agree_of_phases rise s hother (fun u => finalisePhase_agree _ _ u hfin)
    (fun u => ackPhase_agree _ u (by simp_all))

/-- Only the compare of an address frame changes a control register in a SCL step (R13). -/
theorem sclStep_control {s : State} (rise : Bool)
    (hc : ¬ (s.edgeCounter.val = 15 ∧ s.protocolState = .addressPhase)) :
    (sclStep rise s).protocolState = s.protocolState ∧ (sclStep rise s).busStarted = s.busStarted ∧
    (sclStep rise s).busRestarted = s.busRestarted := by
  have key : ∀ f ∈ [Field.protocolState, .busStarted, .busRestarted], s.agree (sclStep rise s) f := by
    intro f hf
    have hout : f ∉ [Field.sdaLow, .activeByte, .pendingTxByte, .outputs, .edgeCounter, .needAck] := by
      revert hf; cases f <;> decide
    exact sclStep_agree_of_phases rise s (by simp_all)
      (fun u => finalisePhase_agree_of_no_compare _ _ u hc (by simp_all)) (fun u => ackPhase_agree _ u (by simp_all))
  exact ⟨(key .protocolState (by decide)).symm, (key .busStarted (by decide)).symm,
    (key .busRestarted (by decide)).symm⟩

/-- `needAck` set after a SCL step: it was finalised at index 15, or stood before and was not used (R141, R142,
R145). -/
theorem sclStep_needAck {s : State} {rise : Bool} (h : (sclStep rise s).needAck = true) :
    s.edgeCounter.val = 15 ∨ (s.needAck = true ∧ s.edgeCounter.val ≠ 16) := by
  by_cases h15 : s.edgeCounter.val = 15
  · exact .inl h15
  · by_cases h16 : s.edgeCounter.val = 16
    · simp [sclStep_ack rise h16] at h
    · have hkeep : s.agree (sclStep rise s) .needAck :=
        sclStep_agree_of_phases rise s (by decide)
          (fun u => by rw [finalisePhase, if_neg h15]; exact agree_refl u _)
          (fun u => by rw [ackPhase, if_neg h16]; exact agree_refl u _)
      exact .inr ⟨hkeep.trans h, h16⟩

/-- Each SCL step changes the parity of the index (R129, R130). -/
theorem sclStep_parity (rise : Bool) (s : State) :
    (sclStep rise s).edgeCounter.val % 2 = (s.edgeCounter.val + 1) % 2 := by
  rw [sclStep_edgeCounter]
  split <;> omega

/-- The protocol state after a SCL step that changes it: a compare, with its two results (R13, R142, R143). -/
theorem sclStep_transition {s : State} {rise : Bool} (h : (sclStep rise s).protocolState ≠ s.protocolState) :
    s.edgeCounter.val = 15 ∧ s.protocolState = .addressPhase ∧
    let b := sampledByte rise .addressPhase s.activeByte s.inp.sdaLevel
    ((receivedAddress b = s.inp.busAddr ∧
        (sclStep rise s).protocolState = if directionBit b then .transmitting else .receiving) ∨
     (receivedAddress b ≠ s.inp.busAddr ∧ (sclStep rise s).protocolState = .idle)) := by
  by_cases hc : s.edgeCounter.val = 15 ∧ s.protocolState = .addressPhase
  · obtain ⟨h15, haddr⟩ := hc
    refine ⟨h15, haddr, ?_⟩
    by_cases hm : receivedAddress (sampledByte rise .addressPhase s.activeByte s.inp.sdaLevel) = s.inp.busAddr
    · exact .inl ⟨hm, by rw [sclStep_last_match rise h15 haddr hm]⟩
    · exact .inr ⟨hm, by rw [sclStep_last_mismatch rise h15 haddr hm]⟩
  · exact absurd (sclStep_control rise hc).1 h

end Sys2Proof.Machine
end

section
/-! CLAIMS. The state: its values at reset, what each instruction may write, its transitions and its invariants
(spec/10_state.md). -/

namespace Sys2Proof.Machine

/-! ## The frame of each instruction (R10) -/

/-- Settles O33, by the instruction: each meaning is one operation, with the frame of its rule. -/
theorem frameByInstruction : Obligations.FrameByInstruction := by
  intro i s t f hexec hf
  cases i with
  | hold | sclfIgn | sclrIgn | sdafIgn | stopIgn | sdarIgn | nop =>
    cases hexec
    exact agree_refl s f
  | reset =>
    cases hexec
    exact resetRegisters_agree s (by revert hf; cases f <;> simp [mayWrite])
  | sclf | sclr =>
    cases hexec
    exact sclStep_agree _ s (by revert hf; cases f <;> simp [mayWrite])
  | start | rstart => cases hexec; exact startHandling_agree s hf
  | stop => cases hexec; exact stop_agree s hf
  | b0rel | b0relRx => cases hexec; exact b0rel_agree s hf
  | b0txld => cases hexec; exact b0txld_agree s hf
  | sampleAddr | sampleRx => cases hexec; exact sample_agree s hf
  | txbit => cases hexec; exact txbit_agree s hf
  | finrx => cases hexec; exact finrx_agree s hf
  | finaddr => cases hexec; exact finaddr_agree s hf
  | ackslot => cases hexec; exact ackslot_agree s hf
  | cntinc | cntincAck => cases hexec; exact cntinc_agree s _ hf
  | cntwrap => cases hexec; exact cntwrap_agree s hf

/-! ## The invariants of the protocol registers (R27 items 1 to 4) -/

/-- The invariant speaks of the protocol registers alone. -/
theorem inv_finishStep {pre post : State} {x : Stimulus} (h : post.Inv) : (finishStep pre post x).Inv := by
  obtain ⟨hidle, hrestart, hrange, hack⟩ := h
  exact ⟨by simpa using hidle, by simpa using hrestart, by simpa using hrange, by simpa using hack⟩

theorem inv_latched {s : State} (h : s.Inv) : s.latched.Inv :=
  ⟨h.idleIff, h.restartedOpen, h.indexRange, h.needAckAt16⟩

theorem inv_resetRegisters (s : State) : s.resetRegisters.Inv where
  idleIff := by simp [State.resetRegisters]
  restartedOpen := by simp [State.resetRegisters]
  indexRange := by simp [State.resetRegisters]
  needAckAt16 := by simp [State.resetRegisters]

theorem inv_startHandling (s : State) : s.startHandling.Inv where
  idleIff := by simp [State.startHandling]
  restartedOpen := by simp [State.startHandling]
  indexRange := by simp [State.startHandling]
  needAckAt16 := by simp [State.startHandling]

/-- STOP closes the transaction and keeps the index and `needAck` (R112). -/
theorem inv_stop {s : State} (h : s.Inv) : s.dropBus.appStop.Inv where
  idleIff := by simp [State.dropBus]
  restartedOpen := by simp [State.dropBus]
  indexRange := h.indexRange
  needAckAt16 := h.needAckAt16

/-- The state and the two transaction bits after a SCL step stand to each other as before, or as after a compare. -/
theorem sclStep_control_inv {s : State} (rise : Bool) (h : s.Inv) :
    ((sclStep rise s).protocolState = .idle ↔ (sclStep rise s).busStarted = false) ∧
    ((sclStep rise s).busRestarted = true → (sclStep rise s).busStarted = true) := by
  by_cases hc : s.edgeCounter.val = 15 ∧ s.protocolState = .addressPhase
  · obtain ⟨h15, haddr⟩ := hc
    have hopen : s.busStarted = true := by
      have := h.idleIff
      simp_all
    by_cases hm : receivedAddress (sampledByte rise .addressPhase s.activeByte s.inp.sdaLevel) = s.inp.busAddr
    · rw [sclStep_last_match rise h15 haddr hm]
      refine ⟨?_, fun _ => hopen⟩
      simp only [hopen]
      split <;> simp
    · rw [sclStep_last_mismatch rise h15 haddr hm]
      simp
  · obtain ⟨hstate, hstarted, hrestarted⟩ := sclStep_control rise hc
    rw [hstate, hstarted, hrestarted]
    exact ⟨h.idleIff, h.restartedOpen⟩

/-- A SCL step keeps the invariant: the finalisation at index 15 sets `needAck` for index 16, where the ACK slot clears
it. -/
theorem inv_sclStep {s : State} (rise : Bool) (h : s.Inv) : (sclStep rise s).Inv where
  idleIff := (sclStep_control_inv rise h).1
  restartedOpen := (sclStep_control_inv rise h).2
  indexRange := by have := (sclStep rise s).edgeCounter.isLt; omega
  needAckAt16 := by
    intro hack
    rw [sclStep_edgeCounter]
    obtain h15 | ⟨hbefore, hne⟩ := sclStep_needAck hack
    · simp [h15]
    · exact absurd (h.needAckAt16 hbefore) hne

theorem inv_opEffect {s : State} (op : Level1Op) (h : s.Inv) : (opEffect op s).Inv := by
  cases op with
  | hold | sclfIgn | sclrIgn | sdafIgn | stopIgn | sdarIgn | nop => exact h
  | reset => exact inv_resetRegisters s
  | sclf | sclr => exact inv_sclStep _ h
  | start | rstart => exact inv_startHandling s
  | stop => exact inv_stop h

/-- Settles O36: entry and the clock edge write no protocol register, and each operation keeps the invariant. -/
theorem invariantKept : Obligations.InvariantKept := by
  intro s t hinv hstep
  obtain ⟨op, -, rfl⟩ := step_cases hstep
  exact inv_finishStep (inv_opEffect op (inv_latched hinv))

/-! ## The alignment of the cycle level (R27 item 5) -/

/-- With no transaction open the alignment says nothing. -/
theorem aligned_of_closed {s : State} (h : s.busStarted = false) : s.Aligned := by
  simp [State.Aligned, h]

/-- After the clock edge the last SCL level is the one the operation has seen. -/
theorem aligned_clockEdge {pre post : State} {c : CycleIn} (hrst : c.rst = false)
    (hsync : post.sclSync = pre.sclSync)
    (h : post.busStarted = true → (post.edgeCounter.val % 2 = 0 ↔ pre.sclSync = true)) :
    (clockEdge pre c post).Aligned := by
  simpa [State.Aligned, clockEdge, hrst, hsync] using h

/-- From an aligned cycle a SCL step finds an even index on a falling edge and an odd one on a rising edge. -/
theorem parity_of_sclOp {s : State} {c : CycleIn} {rise : Bool} (hc : s.nextCycle? = some c) (hal : s.Aligned)
    (h : s.nextOp = some (sclOp rise)) : s.edgeCounter.val % 2 = rise.toNat := by
  obtain ⟨hprev, -⟩ := samples_of_sclOp hc h
  have hiff := hal (busStarted_of_sclOp h)
  rw [hprev] at hiff
  cases rise <;> simp at hiff ⊢ <;> omega

/-- A SCL step moves the index to the parity of the new SCL level. -/
theorem aligned_sclStep {s : State} {c : CycleIn} {rise : Bool} (hc : s.nextCycle? = some c) (hrst : c.rst = false)
    (hal : s.Aligned) (h : s.nextOp = some (sclOp rise)) :
    (clockEdge s c (sclStep rise s.latched)).Aligned := by
  obtain ⟨-, hsync, -⟩ := sclStep_agree rise s.latched (f := .synchronisers) (by decide)
  refine aligned_clockEdge hrst hsync.symm fun _ => ?_
  have hbefore := parity_of_sclOp hc hal h
  rw [sclStep_parity, latched_edgeCounter, (samples_of_sclOp hc h).2]
  cases rise <;> simp at hbefore ⊢ <;> omega

/-- Settles O39, by the selected operation: one that closes the transaction or finds none open leaves nothing to align,
a START aligns anew (SCL is high and the index 0), a SCL step moves both, and without an SCL flag neither moves. -/
theorem alignmentKept : Obligations.AlignmentKept := by
  intro s t c hc hen hal hstep
  obtain ⟨op, hop, rfl⟩ := step_cases hstep
  have hsel := selectedWhen_of_nextOp hop
  rw [latched_inp_of_cycle hc] at hsel
  cases op with
  | reset => exact aligned_of_closed (by simp [opEffect, State.resetRegisters])
  | stop => exact aligned_of_closed (by simp [opEffect, State.dropBus])
  | hold =>
    obtain ⟨hrst, hdisabled⟩ := hsel
    simp_all [State.cycleEvent]
  | sclfIgn =>
    obtain ⟨-, -, hclosed⟩ := hsel
    exact aligned_of_closed (by simpa [opEffect] using hclosed)
  | sclrIgn =>
    obtain ⟨-, -, -, hclosed⟩ := hsel
    exact aligned_of_closed (by simpa [opEffect] using hclosed)
  | stopIgn =>
    obtain ⟨-, -, -, -, -, hclosed⟩ := hsel
    exact aligned_of_closed (by simpa [opEffect] using hclosed)
  | start | rstart =>
    obtain ⟨⟨hrst, -⟩, -, -, hscl, -⟩ := hsel
    have hsync : s.sclSync = true := hscl
    rw [finishStep_of_cycle hc]
    exact aligned_clockEdge hrst rfl (by simp [opEffect, State.startHandling, hsync])
  | sclf =>
    obtain ⟨⟨hrst, -⟩, -⟩ := hsel
    rw [finishStep_of_cycle hc]
    exact aligned_sclStep (rise := false) hc hrst hal hop
  | sclr =>
    obtain ⟨⟨hrst, -⟩, -⟩ := hsel
    rw [finishStep_of_cycle hc]
    exact aligned_sclStep (rise := true) hc hrst hal hop
  | sdafIgn | sdarIgn | nop =>
    obtain ⟨⟨hrst, -⟩, hquiet, -⟩ := hsel
    rw [finishStep_of_cycle hc]
    exact aligned_clockEdge hrst rfl (sclPrev_eq_sclSync_of_sclQuiet hquiet ▸ hal)

/-- Settles O40: the parity of the index is that of the edge, and a SCL step is taken only in an open transaction. -/
theorem sclStepsAlternate : Obligations.SclStepsAlternate := by
  refine ⟨fun s c hc hal => ⟨fun h => ?_, fun h => ?_⟩, fun s hinv hscl hidle => ?_⟩
  · exact parity_of_sclOp (rise := false) hc hal h
  · exact parity_of_sclOp (rise := true) hc hal h
  · obtain ⟨rise, hop⟩ := (nextIsSclStep_iff s).mp hscl
    simpa [busStarted_of_sclOp hop] using hinv.idleIff.mp hidle

/-! ## The transitions of the protocol state (R13) -/

/-- A SCL step changes the protocol state by the compare of an address frame alone, of `finalByte`. -/
theorem transition_of_sclOp {s : State} {rise : Bool} (hop : s.nextOp = some (sclOp rise))
    (hne : (sclStep rise s.latched).protocolState ≠ s.protocolState) :
    s.protocolState = .addressPhase ∧ s.nextIsSclStep ∧ s.edgeCounter.val = 15 ∧
    ((receivedAddress s.finalByte = s.latched.inp.busAddr ∧
        (sclStep rise s.latched).protocolState = if directionBit s.finalByte then .transmitting else .receiving) ∨
     (receivedAddress s.finalByte ≠ s.latched.inp.busAddr ∧ (sclStep rise s.latched).protocolState = .idle)) := by
  obtain ⟨h15, haddr, hcompare⟩ := sclStep_transition hne
  simp only [latched_activeByte, sampledByte_eq_finalByte hop] at hcompare
  exact ⟨haddr, (nextIsSclStep_iff s).mpr ⟨rise, hop⟩, h15, hcompare⟩

/-- Settles O41, by the selected operation. -/
theorem stateTransitionsComplete : Obligations.StateTransitionsComplete := by
  intro s t hstep hne
  obtain ⟨op, hop, rfl⟩ := step_cases hstep
  rw [finishStep_protocolState] at hne ⊢
  cases op with
  | hold | sclfIgn | sclrIgn | sdafIgn | stopIgn | sdarIgn | nop => exact absurd rfl hne
  | start => exact .inl ⟨rfl, .inl hop⟩
  | rstart => exact .inl ⟨rfl, .inr hop⟩
  | sclf => exact .inr (.inl (transition_of_sclOp (rise := false) hop hne))
  | sclr => exact .inr (.inl (transition_of_sclOp (rise := true) hop hne))
  | stop =>
    obtain ⟨-, -, -, -, -, hopen⟩ := selectedWhen_of_nextOp hop
    exact .inr (.inr (.inl ⟨rfl, hop, hopen⟩))
  | reset => exact .inr (.inr (.inr ⟨rfl, hop⟩))

/-! ## The reset state (R28) -/

/-- Settles O15: the reset table, row by row. -/
theorem resetStateValues : Obligations.ResetStateValues := by
  refine ⟨?_, ?_, ?_, ?_, ?_, ?_, ?_, ?_, ?_, ?_, ?_, ?_, ?_, ?_, ?_⟩ <;> rfl

/-- While the engine is idle the listening invariant says nothing. -/
theorem quietInv_of_idle {s : State} (h : s.protocolState = .idle) : s.QuietInv := by
  constructor <;> simp [h]

/-- Settles O37: RESET establishes the invariant, and in Idle the other two say nothing. -/
theorem invariantsAtReset : Obligations.InvariantsAtReset :=
  ⟨inv_resetRegisters State.reset, quietInv_of_idle rfl, aligned_of_closed rfl⟩

end Sys2Proof.Machine
end

section
/-! SUPPORT. Runs of events: what the machine does with a script of events, as a fold over them, so that the proofs
about whole frames cite neither the fuel nor the decoder. -/

namespace Sys2Proof.Machine

/-! ## One event -/

/-- The operation of an event, by the order of R90. -/
def State.opOn (s : State) (e : EventIn) : Level1Op :=
  dispatchChoice e.rst e.enable s.busStarted e.sclLevel e.flags

/-- The state after an event: entry, then the effect of its operation (R90). -/
def State.after (s : State) (e : EventIn) : State := opEffect (s.opOn e) (s.enter e)

theorem step_of_event {s : State} {e : EventIn} {rest : List Stimulus} (h : s.script = .event e :: rest) :
    step s = .next (s.after e) := by
  have hnext : s.nextStimulus = .event e := by simp [State.nextStimulus, h]
  have hlatched : s.latched = s.enter e := by rw [State.latched, hnext, State.eventOf]
  have hop : s.nextOp = some (s.opOn e) := by rw [nextOp_eq, hlatched]; rfl
  rw [step_op hop, hnext, hlatched]
  rfl

/-- No operation writes the latched inputs or the script. -/
theorem opEffect_agree_surroundings (op : Level1Op) (s : State) : s.agree (opEffect op s) .surroundings := by
  cases op with
  | hold | sclfIgn | sclrIgn | sdafIgn | stopIgn | sdarIgn | nop => exact agree_refl s _
  | reset => exact resetRegisters_agree s rfl
  | sclf | sclr => exact sclStep_agree _ s (by decide)
  | start | rstart => exact startHandling_agree s (by decide)
  | stop => exact stop_agree s (by decide)

/-- An event consumes its stimulus and no other (R84). -/
theorem after_script (s : State) (e : EventIn) : (s.after e).script = s.script.tail := by
  obtain ⟨-, hscript, -⟩ := opEffect_agree_surroundings (s.opOn e) (s.enter e)
  exact hscript.symm

/-! ## A run of events -/

/-- The state after a list of events. -/
def State.afterEvents (s : State) (es : List EventIn) : State := es.foldl State.after s

@[simp] theorem afterEvents_nil (s : State) : s.afterEvents [] = s := rfl

@[simp] theorem afterEvents_cons (s : State) (e : EventIn) (es : List EventIn) :
    s.afterEvents (e :: es) = (s.after e).afterEvents es := rfl

@[simp] theorem afterEvents_concat (s : State) (es : List EventIn) (e : EventIn) :
    s.afterEvents (es ++ [e]) = (s.afterEvents es).after e := by
  simp [State.afterEvents]

theorem run_succ {M : Host.Core} {s t : M.State} (h : M.step s = .next t) (k : Nat) :
    M.run (k + 1) s = M.run k t := by
  simp [Host.Core.run, h]

/-- A script's events are performed one after another, and the rest of the script is left. -/
theorem run_events {s : State} {es : List EventIn} {rest : List Stimulus}
    (h : s.script = es.map .event ++ rest) :
    core.run es.length s = .next (s.afterEvents es) ∧ (s.afterEvents es).script = rest := by
  induction es generalizing s with
  | nil => exact ⟨rfl, h⟩
  | cons e es ih =>
    have hstep : core.step s = .next (s.after e) := step_of_event h
    have htail : (s.after e).script = es.map .event ++ rest := by rw [after_script, h]; rfl
    rw [List.length_cons, run_succ hstep]
    exact ih htail

theorem run_events_take {s : State} {es : List EventIn} {rest : List Stimulus}
    (h : s.script = es.map .event ++ rest) {k : Nat} (hk : k ≤ es.length) :
    core.run k s = .next (s.afterEvents (es.take k)) := by
  have hsplit : s.script = (es.take k).map .event ++ ((es.drop k).map .event ++ rest) := by
    rw [h, ← List.append_assoc, ← List.map_append, List.take_append_drop]
  simpa [Nat.min_eq_left hk] using (run_events hsplit).1

/-! ## The events of a frame -/

/-- The edge of a SCL step, of an operation that is one. -/
def edgeOf : Level1Op → Option Bool
  | .sclf => some false
  | .sclr => some true
  | .reset | .hold | .sclfIgn | .sclrIgn | .start | .rstart | .sdafIgn | .stop | .stopIgn | .sdarIgn | .nop => none

/-- The operations that leave a frame in progress: all but a START, a STOP and a reset. -/
def keepsFrame : Level1Op → Bool
  | .reset | .start | .rstart | .stop => false
  | .hold | .sclf | .sclfIgn | .sclr | .sclrIgn | .sdafIgn | .stopIgn | .sdarIgn | .nop => true

/-- The operation of an event in an open transaction. -/
def openOp (e : EventIn) : Level1Op := dispatchChoice e.rst e.enable true e.sclLevel e.flags

section
variable (a : Answers) (x : Bool)

@[simp] theorem openOp_f : openOp ((Token.f x).event a) = .sclf := by
  simp [openOp, dispatchChoice, Token.event, mkEvent, sclFall]

@[simp] theorem openOp_r : openOp ((Token.r x).event a) = .sclr := by
  simp [openOp, dispatchChoice, Token.event, mkEvent, sclFall, sclRise]

@[simp] theorem openOp_dMinus : openOp (Token.dMinus.event a) = .sdafIgn := by
  simp [openOp, dispatchChoice, Token.event, mkEvent, sclFall, sclRise, sdaFall]

@[simp] theorem openOp_dPlus : openOp (Token.dPlus.event a) = .sdarIgn := by
  simp [openOp, dispatchChoice, Token.event, mkEvent, sclFall, sclRise, sdaFall, sdaRise]

end

theorem eq_sclOp_of_edge {op : Level1Op} {rise : Bool} (h : edgeOf op = some rise) : op = sclOp rise := by
  cases op <;> simp_all [edgeOf, sclOp]

theorem opEffect_of_no_edge {op : Level1Op} (h : edgeOf op = none) (hk : keepsFrame op = true) (s : State) :
    opEffect op s = s := by
  cases op with
  | sclf | sclr => simp [edgeOf] at h
  | reset | start | rstart | stop => simp [keepsFrame] at hk
  | hold | sclfIgn | sclrIgn | sdafIgn | stopIgn | sdarIgn | nop => rfl

theorem opOn_of_started {s : State} (h : s.busStarted = true) (e : EventIn) : s.opOn e = openOp e := by
  rw [State.opOn, h, openOp]

/-- An event with an SCL edge is a SCL step (R102, R103). -/
theorem after_of_edge {s : State} {e : EventIn} {rise : Bool} (hopen : s.busStarted = true)
    (h : edgeOf (openOp e) = some rise) : s.after e = sclStep rise (s.enter e) := by
  rw [State.after, opOn_of_started hopen, eq_sclOp_of_edge h, opEffect_sclOp]

/-- Any other event of a frame changes no register (R66 item 1). -/
theorem after_of_no_edge {s : State} {e : EventIn} (hopen : s.busStarted = true)
    (h : edgeOf (openOp e) = none) (hk : keepsFrame (openOp e) = true) : s.after e = s.enter e := by
  rw [State.after, opOn_of_started hopen, opEffect_of_no_edge h hk]

end Sys2Proof.Machine
end

section
/-! SUPPORT. A frame the engine listens in, as a run of events: what the SCL edges among them have left at each index,
whatever other events of the frame lie between them (R66 item 1). -/

namespace Sys2Proof.Machine

/-! ## The SCL edges of a run -/

/-- The SCL steps among the events of an open transaction, each with its edge. -/
def sclEdges (es : List EventIn) : List (Bool × EventIn) :=
  es.filterMap fun e => (edgeOf (openOp e)).map fun rise => (rise, e)

@[simp] theorem sclEdges_nil : sclEdges [] = [] := rfl

@[simp] theorem sclEdges_append (es fs : List EventIn) : sclEdges (es ++ fs) = sclEdges es ++ sclEdges fs :=
  List.filterMap_append

@[simp] theorem sclEdges_cons (e : EventIn) (es : List EventIn) :
    sclEdges (e :: es) = ((edgeOf (openOp e)).map fun rise => (rise, e)).toList ++ sclEdges es := by
  cases h : edgeOf (openOp e) <;> simp [sclEdges, h]

/-! ## A frame the engine listens in -/

theorem sampledByte_fall (st : ProtocolState) (b : Byte) (bit : Bool) : sampledByte false st b bit = b := by
  simp [sampledByte]

theorem sampledByte_rise {st : ProtocolState} (hl : st = .addressPhase ∨ st = .receiving) (b : Byte) (bit : Bool) :
    sampledByte true st b bit = shiftIn b bit := by
  simp [sampledByte, hl]

/-- The engine takes in the bits of this frame (R123). -/
def State.listening (s : State) : Prop := s.protocolState = .addressPhase ∨ s.protocolState = .receiving

/-- The bits taken in so far; at index 0 `activeByte` still holds what B0REL is about to clear (R121). -/
def State.heard (s : State) : Byte := if s.edgeCounter.val = 0 then 0 else s.activeByte

theorem heard_of_pos {s : State} (h : s.edgeCounter.val ≠ 0) : s.heard = s.activeByte := if_neg h

/-- Up to index 14 a SCL step of a listening frame takes in its data bit with the pin released. -/
theorem sclStep_listening {s : State} (rise : Bool) (hl : s.listening) (hi : s.edgeCounter.val ≤ 14) :
    sclStep rise s =
      { s with sdaLow := if s.edgeCounter.val = 0 then false else s.sdaLow
               activeByte := sampledByte rise s.protocolState s.heard s.inp.sdaLevel
               edgeCounter := nextIndex s.edgeCounter } := by
  have ht : s.protocolState ≠ .transmitting := by obtain h | h := hl <;> simp [h]
  by_cases h0 : s.edgeCounter.val = 0
  · simp [sclStep_zero_listen rise h0 ht, State.heard, h0]
  · simp [sclStep_middle rise (by omega) hi, State.heard, h0, ht]

/-- The byte after the data bits of these edges (R123, R124). -/
def takeBits (st : ProtocolState) (b : Byte) (edges : List (Bool × EventIn)) : Byte :=
  edges.foldl (fun b x => sampledByte x.1 st b x.2.sdaLevel) b

theorem takeBits_cons (st : ProtocolState) (b : Byte) (x : Bool × EventIn) (edges : List (Bool × EventIn)) :
    takeBits st b (x :: edges) = takeBits st (sampledByte x.1 st b x.2.sdaLevel) edges := rfl

theorem takeBits_concat (st : ProtocolState) (b : Byte) (edges : List (Bool × EventIn)) (x : Bool × EventIn) :
    takeBits st b (edges ++ [x]) = sampledByte x.1 st (takeBits st b edges) x.2.sdaLevel := by
  simp [takeBits]

/-- Where a listening frame that `s` began stands after the events `es`, before its finalisation. -/
structure Listened (s : State) (es : List EventIn) (t : State) : Prop where
  index : t.edgeCounter.val = (sclEdges es).length
  byte : t.heard = takeBits s.protocolState 0 (sclEdges es)
  released : t.edgeCounter.val = 0 ∨ t.sdaLow = false
  state : t.protocolState = s.protocolState
  started : t.busStarted = true
  restarted : t.busRestarted = s.busRestarted
  needAck : t.needAck = s.needAck
  quiet : es ≠ [] → t.out = Outputs.zero

theorem listened_nil {s : State} (hopen : s.busStarted = true) (h0 : s.edgeCounter.val = 0) : Listened s [] s where
  index := h0
  byte := by simp [State.heard, h0, takeBits]
  released := .inl h0
  state := rfl
  started := hopen
  restarted := rfl
  needAck := rfl
  quiet := by simp

theorem listened_concat {s t : State} {es : List EventIn} {e : EventIn} (hl : s.listening) (h : Listened s es t)
    (hk : keepsFrame (openOp e) = true) (hlen : (sclEdges (es ++ [e])).length ≤ 15) :
    Listened s (es ++ [e]) (t.after e) := by
  obtain ⟨hindex, hbyte, hreleased, hstate, hstarted, hrestarted, hack, -⟩ := h
  have hlt : t.listening := by rwa [State.listening, hstate]
  cases hedge : edgeOf (openOp e) with
  | none =>
    rw [after_of_no_edge hstarted hedge hk]
    exact
      { index := by simp [hedge, hindex]
        byte := by simpa [hedge, State.heard] using hbyte
        released := hreleased
        state := hstate
        started := hstarted
        restarted := hrestarted
        needAck := hack
        quiet := fun _ => rfl }
  | some rise =>
    have hi : t.edgeCounter.val ≤ 14 := by simp [hedge] at hlen; omega
    have hnext : (nextIndex t.edgeCounter).val = t.edgeCounter.val + 1 := nextIndex_val (by omega)
    have hheard : (t.enter e).heard = takeBits s.protocolState 0 (sclEdges es) := hbyte
    rw [after_of_edge hstarted hedge, sclStep_listening rise (s := t.enter e) hlt hi]
    exact
      { index := by simp [hedge, hnext, hindex]
        byte := by
          rw [heard_of_pos (by simp [hnext])]
          simp [hedge, takeBits_concat, hheard, hstate]
        released := .inr (by simpa using hreleased.resolve_left)
        state := hstate
        started := hstarted
        restarted := hrestarted
        needAck := hack
        quiet := fun _ => rfl }

theorem listened_afterEvents {s : State} {es : List EventIn} (hopen : s.busStarted = true) (hl : s.listening)
    (h0 : s.edgeCounter.val = 0) (hk : ∀ e ∈ es, keepsFrame (openOp e) = true) (hlen : (sclEdges es).length ≤ 15) :
    Listened s es (s.afterEvents es) := by
  induction es using List.reverseRecOn with
  | nil => exact listened_nil hopen h0
  | append_singleton es e ih =>
    rw [afterEvents_concat]
    have hes : (sclEdges es).length ≤ 15 := by simp at hlen; omega
    exact listened_concat hl (ih (fun f hf => hk f (by simp [hf])) hes) (hk e (by simp)) hlen

/-! ## The events of `clocks` (R69) -/

/-- The events of a list of tokens, each with the same answers. -/
def tokenEvents (a : Answers) (ts : List Token) : List EventIn := ts.map (Token.event a)

@[simp] theorem length_tokenEvents (a : Answers) (ts : List Token) : (tokenEvents a ts).length = ts.length :=
  List.length_map _

theorem stimuli_eq (a : Answers) (ts : List Token) : stimuli a ts = (tokenEvents a ts).map .event := by
  simp [stimuli, tokenEvents]

theorem mem_sdaChange {l v : Bool} {x : Token} (h : x ∈ sdaChange l v) : x = .dMinus ∨ x = .dPlus := by
  unfold sdaChange at h
  split at h
  · simp at h
  · cases v <;> simp_all

/-- SDA changes while SCL is low are no SCL steps and keep the frame (R99, R101). -/
theorem openOp_settle {a : Answers} {l : Bool} {p : LowPhase} {e : EventIn} (h : e ∈ tokenEvents a (settle l p)) :
    edgeOf (openOp e) = none ∧ keepsFrame (openOp e) = true := by
  obtain ⟨x, hx, rfl⟩ := List.mem_map.mp h
  have hd : x = .dMinus ∨ x = .dPlus := (List.mem_append.mp hx).elim mem_sdaChange mem_sdaChange
  obtain rfl | rfl := hd <;> simp [edgeOf, keepsFrame]

theorem sclEdges_settle (a : Answers) (l : Bool) (p : LowPhase) : sclEdges (tokenEvents a (settle l p)) = [] := by
  rw [sclEdges, List.filterMap_eq_nil_iff]
  intro e he
  rw [(openOp_settle he).1, Option.map_none]

theorem tokenEvents_clocks_cons (a : Answers) (l : Bool) (p : LowPhase) (ps : List LowPhase) :
    tokenEvents a (clocks l (p :: ps)) =
      (Token.f l).event a :: (tokenEvents a (settle l p) ++ (Token.r p.level).event a ::
        tokenEvents a (clocks p.level ps)) := by
  simp [tokenEvents, clocks]

theorem keepsFrame_clocks (a : Answers) (l : Bool) (ps : List LowPhase) :
    ∀ e ∈ tokenEvents a (clocks l ps), keepsFrame (openOp e) = true := by
  induction ps generalizing l with
  | nil => simp [tokenEvents, clocks]
  | cons p ps ih =>
    intro e he
    rw [tokenEvents_clocks_cons] at he
    simp only [List.mem_cons, List.mem_append] at he
    obtain rfl | hsettle | rfl | hrest := he
    · rw [openOp_f]; rfl
    · exact (openOp_settle hsettle).2
    · rw [openOp_r]; rfl
    · exact ih _ e hrest

/-- Each clock has one falling and one rising edge. -/
theorem sclEdges_clocks_cons (a : Answers) (l : Bool) (p : LowPhase) (ps : List LowPhase) :
    sclEdges (tokenEvents a (clocks l (p :: ps))) =
      (false, (Token.f l).event a) :: (true, (Token.r p.level).event a) ::
        sclEdges (tokenEvents a (clocks p.level ps)) := by
  simp [tokenEvents_clocks_cons, sclEdges_settle, edgeOf]

theorem length_sclEdges_clocks (a : Answers) (l : Bool) (ps : List LowPhase) :
    (sclEdges (tokenEvents a (clocks l ps))).length = 2 * ps.length := by
  induction ps generalizing l with
  | nil => rfl
  | cons p ps ih =>
    rw [sclEdges_clocks_cons, List.length_cons, List.length_cons, ih, List.length_cons]
    omega

/-- A listening frame takes in the levels of the rising edges (R123). -/
theorem takeBits_clocks {st : ProtocolState} (hl : st = .addressPhase ∨ st = .receiving) (a : Answers) (l : Bool)
    (ps : List LowPhase) (b : Byte) :
    takeBits st b (sclEdges (tokenEvents a (clocks l ps))) = (ps.map (·.level)).foldl shiftIn b := by
  induction ps generalizing l b with
  | nil => rfl
  | cons p ps ih =>
    rw [sclEdges_clocks_cons, takeBits_cons, takeBits_cons, ih, sampledByte_fall, sampledByte_rise hl]
    rfl

/-- Eight bits shifted in, most significant first, are the byte (R41, R124). -/
theorem foldl_shiftIn_wireBits (v : Byte) : (wireBits v).foldl shiftIn 0 = v := by
  revert v; decide

/-- The last event of a byte's clocks is a rising edge. -/
theorem clocks_eq_concat (l : Bool) {ps : List LowPhase} (h : ps ≠ []) :
    ∃ init x, clocks l ps = init ++ [Token.r x] := by
  induction ps generalizing l with
  | nil => exact absurd rfl h
  | cons p ps ih =>
    cases ps with
    | nil => exact ⟨Token.f l :: settle l p, p.level, rfl⟩
    | cons q qs =>
      obtain ⟨init, x, hinit⟩ := ih p.level (by simp)
      exact ⟨Token.f l :: (settle l p ++ Token.r p.level :: init), x, by rw [clocks, hinit]; simp⟩

/-! ## The eight clocks of a listening frame -/

/-- The state that enters the last edge of a listening frame begun in `s`: that edge completes the byte `v`. -/
structure ByteComplete (s : State) (a : Answers) (v : Byte) (u : State) : Prop where
  index : u.edgeCounter.val = 15
  byte : sampledByte true s.protocolState u.activeByte u.inp.sdaLevel = v
  busAddr : u.inp.busAddr = a.busAddr
  rxAck : u.inp.rxAck = a.rxAck
  released : u.sdaLow = false
  state : u.protocolState = s.protocolState
  started : u.busStarted = true
  restarted : u.busRestarted = s.busRestarted
  needAck : u.needAck = s.needAck
  quiet : u.out = Outputs.zero

theorem nextIndex_fifteen {c : EdgeIndex} (h : c.val = 15) : nextIndex c = 16 := by
  rw [show c = 15 from Fin.ext h]; rfl

section
variable {s : State} {a : Answers} {l : Bool} {v : Byte} {phases : List LowPhase}

/-- The clocks of a byte are fifteen SCL edges and a rising one. -/
theorem clocks_of_byte (hbits : phases.map (·.level) = wireBits v) :
    ∃ init x, tokenEvents a (clocks l phases) = init ++ [(Token.r x).event a] ∧ (sclEdges init).length = 15 := by
  have hlen : phases.length = 8 := by simpa [wireBits] using congrArg List.length hbits
  obtain ⟨init, x, hinit⟩ := clocks_eq_concat l (ps := phases) (by rintro rfl; simp at hlen)
  have hevents : tokenEvents a (clocks l phases) = tokenEvents a init ++ [(Token.r x).event a] := by
    simp [tokenEvents, hinit]
  have h16 := length_sclEdges_clocks a l phases
  rw [hevents, hlen] at h16
  exact ⟨_, x, hevents, by simpa [edgeOf] using h16⟩

/-- The eight clocks of `v` in a listening frame: up to index 15 no strobe, then the SCL step that completes `v`. -/
theorem afterEvents_clocks (hopen : s.busStarted = true) (hl : s.listening) (h0 : s.edgeCounter.val = 0)
    (hbits : phases.map (·.level) = wireBits v) :
    (∃ u, ByteComplete s a v u ∧ s.afterEvents (tokenEvents a (clocks l phases)) = sclStep true u) ∧
    ∀ k, 0 < k → k < (clocks l phases).length →
      (s.afterEvents ((tokenEvents a (clocks l phases)).take k)).out = Outputs.zero := by
  obtain ⟨init, x, hevents, h15⟩ := clocks_of_byte (a := a) (l := l) hbits
  have hprefix : ∀ es, es <+: init → Listened s es (s.afterEvents es) := by
    intro es hes
    refine listened_afterEvents hopen hl h0 (fun e he => keepsFrame_clocks a l phases e ?_) ?_
    · rw [hevents]
      exact List.mem_append_left _ (hes.subset he)
    · exact (hes.filterMap _).length_le.trans_eq h15
  refine ⟨⟨(s.afterEvents init).enter ((Token.r x).event a), ?_, ?_⟩, fun k hpos hk => ?_⟩
  · obtain ⟨hindex, hbyte, hreleased, hstate, hstarted, hrestarted, hack, -⟩ := hprefix init List.prefix_rfl
    rw [h15] at hindex
    refine ⟨hindex, ?_, rfl, rfl, by simpa [hindex] using hreleased, hstate, hstarted, hrestarted, hack, rfl⟩
    have hheard : (s.afterEvents init).activeByte = takeBits s.protocolState 0 (sclEdges init) :=
      (heard_of_pos (by omega)).symm.trans hbyte
    calc sampledByte true s.protocolState (s.afterEvents init).activeByte x
        = takeBits s.protocolState 0 (sclEdges init ++ [(true, (Token.r x).event a)]) := by
          rw [hheard, takeBits_concat]; rfl
      _ = takeBits s.protocolState 0 (sclEdges (tokenEvents a (clocks l phases))) := by simp [hevents, edgeOf]
      _ = v := by rw [takeBits_clocks hl, hbits, foldl_shiftIn_wireBits]
  · rw [hevents, afterEvents_concat,
      after_of_edge (rise := true) (hprefix init List.prefix_rfl).started (by simp [edgeOf])]
  · have hk' : k ≤ init.length := by
      have htotal := congrArg List.length hevents
      rw [length_tokenEvents, List.length_append, List.length_singleton] at htotal
      omega
    have hne : init.take k ≠ [] := by
      rw [← List.length_pos_iff, List.length_take]
      omega
    rw [hevents, List.take_append_of_le_length hk']
    exact (hprefix _ (List.take_prefix k init)).quiet hne

end

end Sys2Proof.Machine
end

section
/-! SUPPORT. A transmitted frame as a run of events, from the falling edge of index 0 on: the byte in the shift register,
and its bit on SDA, after each falling edge (R122, R125). -/

namespace Sys2Proof.Machine

/-! ## The SCL step of a transmitted frame, index 1 to 15 -/

section
variable {s : State} (ht : s.protocolState = .transmitting) (h1 : 1 ≤ s.edgeCounter.val)
  (h15 : s.edgeCounter.val ≤ 15)
include ht h1 h15

/-- A falling edge puts the next bit on SDA (R125). -/
theorem sclStep_fall_transmitting :
    sclStep false s =
      { s with sdaLow := !transmitBit s.pendingTxByte
               pendingTxByte := shiftLeft1 s.pendingTxByte
               edgeCounter := nextIndex s.edgeCounter } := by
  by_cases h : s.edgeCounter.val = 15
  · simp [sclStep_last_other false h (by simp [ht]), ht]
  · simp [sclStep_middle false h1 (by omega), ht]

/-- A rising edge changes the index alone (R123). -/
theorem sclStep_rise_transmitting : sclStep true s = { s with edgeCounter := nextIndex s.edgeCounter } := by
  by_cases h : s.edgeCounter.val = 15
  · simp [sclStep_last_other true h (by simp [ht])]
  · simp [sclStep_middle true h1 (by omega), ht, sampledByte]

end

/-! ## The frame after its first edge -/

/-- The falling edges among the SCL steps of a run. -/
def falls (es : List EventIn) : Nat := (sclEdges es).countP (fun x => !x.1)

/-- Where a transmitted frame of the byte `b` stands after its first edge, a falling one, and the events `es`. -/
structure Sent (s : State) (b : Byte) (es : List EventIn) (t : State) : Prop where
  index : t.edgeCounter.val = 1 + (sclEdges es).length
  pending : t.pendingTxByte = b <<< (falls es + 1)
  pin : t.sdaLow = !transmitBit (b <<< falls es)
  state : t.protocolState = .transmitting
  started : t.busStarted = true
  needAck : t.needAck = s.needAck
  request : t.out.txReq = es.isEmpty

/-- The falling edge of index 0 asks for the byte and sends its bit 7 (R122, R125). -/
theorem sent_nil {s : State} {e : EventIn} (hopen : s.busStarted = true) (ht : s.protocolState = .transmitting)
    (h0 : s.edgeCounter.val = 0) (hedge : edgeOf (openOp e) = some false) : Sent s e.txData [] (s.after e) := by
  rw [after_of_edge hopen hedge, sclStep_zero_fall_transmitting (s := s.enter e) h0 ht]
  have hnext : (nextIndex s.edgeCounter).val = 1 := by rw [nextIndex_val (by omega), h0]
  exact ⟨hnext, rfl, by simp [falls], ht, hopen, rfl, rfl⟩

theorem sent_concat {s t : State} {b : Byte} {es : List EventIn} {e : EventIn} (h : Sent s b es t)
    (hk : keepsFrame (openOp e) = true) (hlen : (sclEdges (es ++ [e])).length ≤ 15) :
    Sent s b (es ++ [e]) (t.after e) := by
  obtain ⟨hindex, hpending, hpin, hstate, hstarted, hack, -⟩ := h
  have hrequest : false = (es ++ [e]).isEmpty := by simp
  cases hedge : edgeOf (openOp e) with
  | none =>
    have hfalls : falls (es ++ [e]) = falls es := by simp [falls, hedge]
    rw [after_of_no_edge hstarted hedge hk]
    exact ⟨by simp [hedge, hindex], by simp [hfalls, hpending], by simp [hfalls, hpin], hstate, hstarted, hack,
      hrequest⟩
  | some rise =>
    have h1 : 1 ≤ t.edgeCounter.val := by omega
    have h15 : t.edgeCounter.val ≤ 15 := by simp [hedge] at hlen; omega
    have hnext : (nextIndex t.edgeCounter).val = 1 + (sclEdges (es ++ [e])).length := by
      rw [nextIndex_val (by omega), hindex]
      simp [hedge, Nat.add_assoc]
    rw [after_of_edge hstarted hedge]
    cases rise with
    | false =>
      have hfalls : falls (es ++ [e]) = falls es + 1 := by simp [falls, hedge]
      rw [sclStep_fall_transmitting (s := t.enter e) hstate h1 h15]
      exact ⟨hnext, by simp [hfalls, hpending, shiftLeft1, BitVec.shiftLeft_add], by simp [hfalls, hpending], hstate,
        hstarted, hack, hrequest⟩
    | true =>
      have hfalls : falls (es ++ [e]) = falls es := by simp [falls, hedge]
      rw [sclStep_rise_transmitting (s := t.enter e) hstate h1 h15]
      exact ⟨hnext, by simp [hfalls, hpending], by simp [hfalls, hpin], hstate, hstarted, hack, hrequest⟩

theorem sent_afterEvents {s : State} {e : EventIn} {es : List EventIn} (hopen : s.busStarted = true)
    (ht : s.protocolState = .transmitting) (h0 : s.edgeCounter.val = 0) (hedge : edgeOf (openOp e) = some false)
    (hk : ∀ e ∈ es, keepsFrame (openOp e) = true) (hlen : (sclEdges es).length ≤ 15) :
    Sent s e.txData es (s.afterEvents (e :: es)) := by
  rw [afterEvents_cons]
  induction es using List.reverseRecOn with
  | nil => exact sent_nil hopen ht h0 hedge
  | append_singleton es f ih =>
    rw [afterEvents_concat]
    have hes : (sclEdges es).length ≤ 15 := by simp at hlen; omega
    exact sent_concat (ih (fun g hg => hk g (by simp [hg])) hes) (hk f (by simp)) hlen

/-- The bit on SDA after `k` shifts (R65, R125). -/
theorem transmitBit_shiftLeft (b : Byte) {k : Nat} (hk : k < 8) : transmitBit (b <<< k) = b.getLsbD (7 - k) := by
  rw [transmitBit, BitVec.getLsbD_shiftLeft]
  simp
  omega

/-! ## The events of SCL clocks -/

/-- The falling edge of a clock. -/
def fallEvent (c : SclClock) : EventIn := (Token.f c.fallSda).event c.fallAnswers

/-- The rising edge of a clock. -/
def riseEvent (c : SclClock) : EventIn := (Token.r c.riseSda).event c.riseAnswers

@[simp] theorem openOp_fallEvent (c : SclClock) : openOp (fallEvent c) = .sclf := openOp_f _ _
@[simp] theorem openOp_riseEvent (c : SclClock) : openOp (riseEvent c) = .sclr := openOp_r _ _

/-- The events of whole clocks. -/
def clockEvents (cs : List SclClock) : List EventIn := cs.flatMap fun c => [fallEvent c, riseEvent c]

theorem clockEvents_cons (c : SclClock) (cs : List SclClock) :
    clockEvents (c :: cs) = fallEvent c :: riseEvent c :: clockEvents cs := rfl

theorem flatMap_events (cs : List SclClock) : cs.flatMap SclClock.events = (clockEvents cs).map .event := by
  rw [clockEvents, List.map_flatMap]
  rfl

theorem keepsFrame_clockEvents {cs : List SclClock} {e : EventIn} (h : e ∈ clockEvents cs) :
    keepsFrame (openOp e) = true := by
  obtain ⟨c, -, hc⟩ := List.mem_flatMap.mp h
  obtain rfl | rfl : e = fallEvent c ∨ e = riseEvent c := by simpa using hc
  · rw [openOp_fallEvent]; rfl
  · rw [openOp_riseEvent]; rfl

theorem length_clockEvents (cs : List SclClock) : (clockEvents cs).length = 2 * cs.length := by
  simp [clockEvents, Nat.mul_comm]

theorem sclEdges_clockEvents_cons (c : SclClock) (cs : List SclClock) :
    sclEdges (clockEvents (c :: cs)) =
      (false, fallEvent c) :: (true, riseEvent c) :: sclEdges (clockEvents cs) := by
  simp [clockEvents_cons, edgeOf]

theorem length_sclEdges_clockEvents (cs : List SclClock) :
    (sclEdges (clockEvents cs)).length = 2 * cs.length := by
  induction cs with
  | nil => rfl
  | cons c cs ih =>
    rw [sclEdges_clockEvents_cons, List.length_cons, List.length_cons, ih, List.length_cons]
    omega

theorem falls_fallEvent_cons (c : SclClock) (es : List EventIn) : falls (fallEvent c :: es) = falls es + 1 := by
  simp [falls, edgeOf]

theorem falls_clock (c : SclClock) (es : List EventIn) : falls (fallEvent c :: riseEvent c :: es) = falls es + 1 := by
  simp [falls, edgeOf]

theorem falls_clockEvents (cs : List SclClock) : falls (clockEvents cs) = cs.length := by
  induction cs with
  | nil => rfl
  | cons c cs ih => rw [clockEvents_cons, falls_clock, ih, List.length_cons]

/-- The `k`-th clock's falling edge is the `k`-th of the run. -/
theorem falls_take_clockEvents {cs : List SclClock} {k : Nat} (hk : k < cs.length) :
    falls ((clockEvents cs).take (2 * k + 1)) = k + 1 := by
  induction cs generalizing k with
  | nil => simp at hk
  | cons c cs ih =>
    cases k with
    | zero => simp [clockEvents_cons, falls, edgeOf]
    | succ k =>
      have htake : (clockEvents (c :: cs)).take (2 * (k + 1) + 1) =
          fallEvent c :: riseEvent c :: (clockEvents cs).take (2 * k + 1) := rfl
      rw [htake, falls_clock, ih (by simpa using hk)]

/-! ## The eight clocks of a transmitted frame -/

/-- The events of a transmitted frame after its first falling edge. -/
def laterEvents (first : SclClock) (others : List SclClock) : List EventIn := riseEvent first :: clockEvents others

theorem clockEvents_eq_cons_laterEvents (first : SclClock) (others : List SclClock) :
    clockEvents (first :: others) = fallEvent first :: laterEvents first others := rfl

theorem length_sclEdges_laterEvents {first : SclClock} {others : List SclClock} (hlen : others.length = 7) :
    (sclEdges (laterEvents first others)).length = 15 := by
  simp [laterEvents, edgeOf, length_sclEdges_clockEvents, hlen]

theorem falls_laterEvents (first : SclClock) (others : List SclClock) :
    falls (laterEvents first others) = others.length := by
  have hall := falls_clockEvents (first :: others)
  rwa [clockEvents_eq_cons_laterEvents, falls_fallEvent_cons, List.length_cons, Nat.add_right_cancel_iff] at hall

/-- Every run of a transmitted frame's clocks from index 0 on sends the `tx_data` of its first event. -/
theorem sent_clocks {s : State} {first : SclClock} {others : List SclClock} (hopen : s.busStarted = true)
    (ht : s.protocolState = .transmitting) (h0 : s.edgeCounter.val = 0) (hlen : others.length = 7) (n : Nat) :
    Sent s first.fallAnswers.txData ((laterEvents first others).take n)
      (s.afterEvents ((clockEvents (first :: others)).take (n + 1))) := by
  have h15 := length_sclEdges_laterEvents (first := first) hlen
  refine sent_afterEvents (e := fallEvent first) hopen ht h0 (by simp [edgeOf]) (fun e he => ?_) ?_
  · exact keepsFrame_clockEvents (cs := first :: others)
      (List.mem_cons_of_mem (fallEvent first) (List.mem_of_mem_take he))
  · exact ((List.take_prefix n _).filterMap _).length_le.trans_eq h15

end Sys2Proof.Machine
end

section
/-! CLAIMS. The byte frames of a transaction (spec/20_memory.md). -/

namespace Sys2Proof.Machine

/-! ## The start of a frame (R43) -/

/-- Settles O43: START and RSTART, between which the old `busStarted` alone decides, do the same (R110, R111). -/
theorem startRealigns : Obligations.StartRealigns := by
  intro s e hrst hen hfall hrise hsda hscl
  have hop : s.opOn e = .start ∨ s.opOn e = .rstart := by
    cases hs : s.busStarted <;> simp [State.opOn, dispatchChoice, hrst, hen, hfall, hrise, hsda, hscl, hs]
  have heffect : opEffect (s.opOn e) ((s.given e).enter e) = ((s.given e).enter e).startHandling := by
    obtain h | h := hop <;> rw [h] <;> rfl
  calc step (s.given e) = .next ((s.given e).after e) := step_of_event rfl
    _ = .next ((s.given e).enter e).startHandling := congrArg _ heffect

/-! ## Received frames (R41, R42) -/

/-- Settles O50: the sixteen SCL edges take in the byte, and the last of them hands it over (R141). -/
theorem receiveFrame : Obligations.ReceiveFrame := by
  intro s a l v phases rest hopen hrx h0 hbits hscript
  rw [stimuli_eq] at hscript
  obtain ⟨⟨u, hu, hlast⟩, hquiet⟩ :=
    afterEvents_clocks (a := a) (l := l) hopen (.inr hrx) (by simp [h0]) hbits
  obtain ⟨hrun, hrest⟩ := run_events hscript
  rw [length_tokenEvents] at hrun
  have hbefore : ∀ k < (clocks l phases).length, ∀ t, core.run k s = .next t → 0 < k → t.out.rxValid = false := by
    intro k hk t ht hpos
    rw [run_events_take hscript (by simpa using hk.le)] at ht
    obtain rfl := Host.Outcome.next.inj ht
    rw [hquiet k hpos hk]
    rfl
  have hstate : u.protocolState = .receiving := hu.state.trans hrx
  have hbyte := hu.byte
  rw [hrx] at hbyte
  have hend := sclStep_last_receiving true hu.index hstate
  rw [← hlast, hbyte] at hend
  refine ⟨_, hrun, ?_, ?_, ?_, ?_, ?_, ?_, ?_, hrest, hbefore⟩
  all_goals rw [hend]
  · exact hu.rxAck
  · exact nextIndex_fifteen hu.index
  · exact hstate
  · exact hu.started
  · exact hu.released

/-! ## Address frames (R46) -/

/-- The address and the direction of an address byte (R65). -/
theorem fields_addressByte (addr : BusAddr) (dir : Bool) :
    receivedAddress (addressByte addr dir) = addr ∧ directionBit (addressByte addr dir) = dir := by
  revert addr; cases dir <;> decide

/-- Settles O51: the sixteen SCL edges take in the address byte, and the last of them compares it (R142, R143). -/
theorem addressFrame : Obligations.AddressFrame := by
  intro s a l dir addr phases rest hopen haddr h0 hbits hscript
  rw [stimuli_eq] at hscript
  obtain ⟨⟨u, hu, hlast⟩, -⟩ :=
    afterEvents_clocks (a := a) (l := l) hopen (.inl haddr) (by simp [h0]) hbits
  obtain ⟨hrun, hrest⟩ := run_events hscript
  rw [length_tokenEvents] at hrun
  obtain ⟨hreceived, hdirection⟩ := fields_addressByte addr dir
  have hstate : u.protocolState = .addressPhase := hu.state.trans haddr
  have hbyte := hu.byte
  rw [haddr] at hbyte
  by_cases hm : addr = a.busAddr
  · have hend := sclStep_last_match true hu.index hstate (by rw [hbyte, hreceived, hu.busAddr, hm])
    rw [← hlast, hbyte, hdirection] at hend
    refine ⟨_, hrun, ?_, ?_, hrest, fun _ => ?_, fun hne => absurd hm hne⟩
    all_goals rw [hend]
    · exact nextIndex_fifteen hu.index
    · exact hu.released
    · exact ⟨rfl, rfl, hu.restarted, rfl, rfl, hu.started⟩
  · have hend := sclStep_last_mismatch true hu.index hstate (by rwa [hbyte, hreceived, hu.busAddr])
    rw [← hlast, hbyte] at hend
    refine ⟨_, hrun, ?_, ?_, hrest, fun heq => absurd heq hm, fun _ => ?_⟩
    all_goals rw [hend]
    · exact nextIndex_fifteen hu.index
    · exact hu.released
    · exact ⟨hu.quiet, hu.needAck, rfl, rfl, rfl⟩

/-! ## Transmitted frames (R41) -/

/-- Settles O52: after the falling edge of index 0 the shift register and the pin follow from its `tx_data` alone. -/
theorem transmitFrame : Obligations.TransmitFrame := by
  intro s first others rest hopen htx h0 hlen hscript
  rw [flatMap_events] at hscript
  have hlength : (clockEvents (first :: others)).length = 16 := by simp [length_clockEvents, hlen]
  have hsent := sent_clocks (first := first) (others := others) hopen htx (by simp [h0]) hlen
  refine ⟨fun k hk => ⟨_, run_events_take hscript (by omega), ?_⟩,
    fun n hn => ⟨_, run_events_take hscript (by omega), ?_⟩, ?_⟩
  · have hfalls := falls_take_clockEvents (cs := first :: others) (k := k) (by simpa [hlen] using hk)
    rw [clockEvents_eq_cons_laterEvents, List.take_succ_cons, falls_fallEvent_cons, Nat.add_right_cancel_iff]
      at hfalls
    rw [(hsent (2 * k)).pin, hfalls, transmitBit_shiftLeft _ hk]
  · rw [(hsent n).request]
    cases n <;> rfl
  · obtain ⟨hrun, hrest⟩ := run_events hscript
    rw [hlength] at hrun
    have hend := hsent 15
    have htake : (laterEvents first others).take 15 = laterEvents first others :=
      List.take_of_length_le (by simp [laterEvents, length_clockEvents, hlen])
    rw [clockEvents_eq_cons_laterEvents, List.take_succ_cons, htake, ← clockEvents_eq_cons_laterEvents] at hend
    refine ⟨_, hrun, ?_, ?_, hend.state, hend.needAck, hrest⟩
    · rw [hend.pending, falls_laterEvents, hlen]
      exact BitVec.shiftLeft_eq_zero (by decide)
    · exact Fin.ext (by rw [hend.index, length_sclEdges_laterEvents hlen]; rfl)

end Sys2Proof.Machine
end

section
/-! SUPPORT. The two tables of spec/30_encoding.md: rows that exclude each other, what a row says of a word, and the
word of an instruction. -/

namespace Sys2Proof

/-! ## Rows that exclude each other (R63, R64) -/

/-- A word that two rows match shows the same bits wherever both rows look. -/
theorem values_agree_of_hits {n : Nat} {w m v m' v' : BitVec n} (h : w &&& m = v) (h' : w &&& m' = v') :
    v &&& m' = v' &&& m := by
  subst h h'
  ac_rfl

theorem length_filter_le_one {α : Type} {l : List α} {p : α → Bool}
    (h : l.Pairwise fun a b => ¬ (p a = true ∧ p b = true)) : (l.filter p).length ≤ 1 := by
  rcases hl : l.filter p with _ | ⟨a, _ | ⟨b, t⟩⟩
  · simp
  · simp
  · have hmem : ∀ x ∈ a :: b :: t, p x = true := fun x hx => (List.mem_filter.mp (hl ▸ hx)).2
    have hpair := h.filter p
    rw [hl, List.pairwise_cons] at hpair
    exact absurd ⟨hmem a (by simp), hmem b (by simp)⟩ (hpair.1 b (by simp))

/-- Any two level-1 rows differ on a bit both look at. -/
theorem opwRows_pairwise_differ : opwRows.Pairwise fun q r => q.value &&& r.mask ≠ r.value &&& q.mask := by
  decide

/-- Any two rows of one phase differ on a bit both look at. -/
theorem mowRows_pairwise_differ :
    mowRows.Pairwise fun q r => q.phase = r.phase → q.value &&& r.mask ≠ r.value &&& q.mask := by
  decide

theorem opwRows_filter_length_le_one (w : Opw) : (opwRows.filter (·.hits w)).length ≤ 1 := by
  refine length_filter_le_one (opwRows_pairwise_differ.imp ?_)
  rintro q r hdiffer ⟨hq, hr⟩
  exact hdiffer (values_agree_of_hits (eq_of_beq hq) (eq_of_beq hr))

theorem mowRows_filter_length_le_one (p : Phase) (m : Mow) :
    (mowRows.filter fun r => decide (r.phase = p) && r.hits m).length ≤ 1 := by
  refine length_filter_le_one (mowRows_pairwise_differ.imp ?_)
  rintro q r hdiffer ⟨hq, hr⟩
  obtain ⟨hqp, hqm⟩ : q.phase = p ∧ q.hits m = true := by simpa using hq
  obtain ⟨hrp, hrm⟩ : r.phase = p ∧ r.hits m = true := by simpa using hr
  exact hdiffer (hqp.trans hrp.symm) (values_agree_of_hits (eq_of_beq hqm) (eq_of_beq hrm))

/-- The rows of R64 take the indices 0 to 17 alone (R66 item 3). -/
theorem mowIndex_lt_of_hits {r : MowRow} (hr : r ∈ mowRows) {m : Mow} (h : r.hits m = true) :
    (mowIndex m).toNat < 18 := by
  have hrows : ∀ r ∈ mowRows, ∀ m : Mow, r.hits m = true → (mowIndex m).toNat < 18 := by decide
  exact hrows r hr m h

/-! ## Fields of the words -/

@[simp] theorem mowRise_packMow (rise : Bool) (st : ProtocolState) (c : BitVec 5) :
    mowRise (packMow rise st c) = rise := by
  cases rise <;> cases st <;> revert c <;> decide

@[simp] theorem mowState_packMow (rise : Bool) (st : ProtocolState) (c : BitVec 5) :
    mowState (packMow rise st c) = st := by
  cases rise <;> cases st <;> revert c <;> decide

/-- An index of 0 to 15 is the low four bits of its word (R70). -/
@[simp] theorem extractLsb'_packMow (rise : Bool) (st : ProtocolState) (k : BitVec 4) :
    (packMow rise st (0#1 ++ k)).extractLsb' 0 4 = k := by
  cases rise <;> cases st <;> revert k <;> decide

theorem packMow_of_fields (m : Mow) : packMow (mowRise m) (mowState m) (mowIndex m) = m := by
  revert m; decide

/-! ## Decoding a word whose row is known -/

open Laws (rowOf selectedRow microRowAt)

/-- The family SelectedByOwnRow, assembled. -/
theorem selectedRow_encode {i : Instr} (hw : i.wellFormed = true) : selectedRow (encode i) = some (rowOf i) := by
  cases i with
  | reset => exact Laws.SelectedByOwnRow.reset _ _ _ _ _ hw
  | hold => exact Laws.SelectedByOwnRow.hold _ _ _ _ hw
  | sclf => exact Laws.SelectedByOwnRow.sclf _ _ _ _ _ hw
  | sclfIgn => exact Laws.SelectedByOwnRow.sclfIgn _ _ _ _ _ hw
  | sclr => exact Laws.SelectedByOwnRow.sclr _ _ _ _ hw
  | sclrIgn => exact Laws.SelectedByOwnRow.sclrIgn _ _ _ _ hw
  | start => exact Laws.SelectedByOwnRow.start _ _ hw
  | rstart => exact Laws.SelectedByOwnRow.rstart _ _ hw
  | sdafIgn => exact Laws.SelectedByOwnRow.sdafIgn _ _ _ hw
  | stop => exact Laws.SelectedByOwnRow.stop _ hw
  | stopIgn => exact Laws.SelectedByOwnRow.stopIgn _ hw
  | sdarIgn => exact Laws.SelectedByOwnRow.sdarIgn _ _ hw
  | nop => exact Laws.SelectedByOwnRow.nop _ _ _ hw
  | b0rel => exact Laws.SelectedByOwnRow.b0rel _ _ hw
  | b0relRx => exact Laws.SelectedByOwnRow.b0relRx _ hw
  | b0txld => exact Laws.SelectedByOwnRow.b0txld _ hw
  | sampleAddr => exact Laws.SelectedByOwnRow.sampleAddr _ hw
  | sampleRx => exact Laws.SelectedByOwnRow.sampleRx _ hw
  | txbit => exact Laws.SelectedByOwnRow.txbit _ hw
  | finrx => exact Laws.SelectedByOwnRow.finrx _ hw
  | finaddr => exact Laws.SelectedByOwnRow.finaddr _ hw
  | ackslot => exact Laws.SelectedByOwnRow.ackslot _ _ hw
  | cntinc => exact Laws.SelectedByOwnRow.cntinc _ _ _ hw
  | cntincAck => exact Laws.SelectedByOwnRow.cntincAck _ _ hw
  | cntwrap => exact Laws.SelectedByOwnRow.cntwrap _ _ hw

/-- A packed word decodes to the instruction its row makes of its fields, where that is well formed. -/
theorem decode_opw_of_selectedRow {f : OpwFields} {op : Level1Op} {i : Instr}
    (h : selectedRow (.opw (packOpw f)) = some (.inl op)) (hi : instrOf op f = i) (hw : i.wellFormed = true) :
    decode (.opw (packOpw f)) = .ok i := by
  subst hi
  exact decodeOpw_packOpw (by simpa [selectedRow] using h) hw

theorem microAt_eq (p : Phase) (m : Mow) : microAt p m = (microRowAt p m).map (microInstr · m) := by
  simp [microAt, microRowAt, Function.comp_def]

/-- A micro-operation word decodes to the instruction its row of that phase makes of its fields. -/
theorem decode_mow_of_selectedRow {p : Phase} {m : Mow} {op : MicroOp}
    (h : selectedRow (.mow p m) = some (.inr op)) : decode (.mow p m) = .ok (microInstr op m) := by
  have hrow : microRowAt p m = some op := by simpa [selectedRow] using h
  simp [decode, microAt_eq, hrow]

/-! ## The encoding of what a word decodes to -/

/-- A word decodes only to the instruction of the operation it selects. -/
theorem decodeOpw_eq_ok {w : Opw} {i : Instr} (h : decodeOpw w = .ok i) :
    ∃ op, level1Op w = some op ∧ instrOf op (unpackOpw w) = i ∧ i.wellFormed = true := by
  obtain ⟨op, hop⟩ := Option.isSome_iff_exists.mp (level1Op_isSome w)
  by_cases hw : (instrOf op (unpackOpw w)).wellFormed = true
  · obtain rfl : instrOf op (unpackOpw w) = i := by simpa [decodeOpw, hop, hw] using h
    exact ⟨op, hop, rfl, hw⟩
  · simp [decodeOpw, hop, hw] at h

theorem decode_mow_eq_ok {p : Phase} {m : Mow} {i : Instr} (h : decode (.mow p m) = .ok i) :
    microAt p m = some i := by
  cases hmicro : microAt p m <;> simp_all [decode]

/-- A bare micro-operation word is read as the row of some phase (log 4). -/
theorem exists_phase_of_decodeTableWord {m : Mow} {i : Instr} (h : decodeTableWord 8 m.toNat = some i) :
    ∃ p, microAt p m = some i := by
  have hbare : decodeBareMow m = some i := by simpa [decodeTableWord, m.isLt] using h
  obtain ⟨p, -, hp⟩ := List.exists_of_findSome?_eq_some hbare
  exact ⟨p, hp⟩

theorem microInstr_mem_microOps {r : MowRow} {m : Mow} (hr : r ∈ mowRows) (h : r.hits m = true) :
    microInstr r.op m ∈ microOps m :=
  List.mem_map_of_mem (List.mem_filter.mpr ⟨hr, h⟩)

/-- A micro-operation that a word decodes to is that of a row of the table that matches the word. -/
theorem exists_row_of_microAt {p : Phase} {m : Mow} {i : Instr} (h : microAt p m = some i) :
    ∃ r ∈ mowRows, r.phase = p ∧ r.hits m = true ∧ i = microInstr r.op m := by
  obtain ⟨r, hfind, rfl⟩ := Option.map_eq_some_iff.mp h
  obtain ⟨hphase, hhits⟩ : r.phase = p ∧ r.hits m = true := by simpa using List.find?_some hfind
  exact ⟨r, List.mem_of_find?_eq_some hfind, hphase, hhits, rfl⟩

/-- Each row of R64, on each word it matches: the operands and the match column give the word back. -/
theorem encode_microInstr {r : MowRow} (hr : r ∈ mowRows) {m : Mow} (h : r.hits m = true) :
    encode (microInstr r.op m) = .mow r.phase m ∧ (microInstr r.op m).wellFormed = true := by
  have hrows : ∀ r ∈ mowRows, ∀ m : Mow, r.hits m = true →
      encode (microInstr r.op m) = .mow r.phase m ∧ (microInstr r.op m).wellFormed = true := by decide
  exact hrows r hr m h

end Sys2Proof

namespace Sys2Proof.Machine

/-! ## The operation word -/

/-- The flag word from its bits (R60). -/
theorem mkFlags_of_bits (f : FlagWord) : mkFlags (sclFall f) (sclRise f) (sdaFall f) (sdaRise f) = f := by
  revert f; decide

/-- The operation of R90 on its word: the operands and the bits it is chosen by give the word back. -/
theorem encode_instrOf_dispatchChoice (f : OpwFields) :
    encode (instrOf (dispatchChoice f.rst f.enable f.busStarted f.sclLevel f.flags) f) = .opw (packOpw f) := by
  have hflags := mkFlags_of_bits f.flags
  obtain ⟨rst, enable, busStarted, sclLevel, flags, tail⟩ := f
  simp only [sclFall, sclRise, sdaFall, sdaRise] at hflags
  unfold dispatchChoice
  split_ifs <;> simp_all [instrOf, encode, liveOpw, sclFall, sclRise, sdaFall, sdaRise]

/-- An operation selected by a word is encoded as that word. -/
theorem encode_instrOf {w : Opw} {op : Level1Op} (h : level1Op w = some op) :
    encode (instrOf op (unpackOpw w)) = .opw w := by
  rw [← packOpw_unpackOpw w, level1Op_packOpw_eq_dispatchChoice, Option.some.injEq] at h
  rw [← h, encode_instrOf_dispatchChoice, packOpw_unpackOpw]

/-! ## Placed words (log 4, log 7) -/

/-- An index below 18 is held as it is (R12). -/
theorem bits_placedIndex (old : EdgeIndex) {b : BitVec 5} (h : b.toNat < 18) :
    EdgeIndex.bits (placedIndex old b) = b := by
  simp [placedIndex, h, EdgeIndex.bits]

/-- The event placed with these fields is the next one, and the state's fields are theirs. -/
theorem opwFields_placeOpw (s : State) {f : OpwFields} (h : f.tail.indexOk = true) :
    (s.placeOpw f).latched.opwFields = f := by
  have hindex : EdgeIndex.bits (placedIndex s.edgeCounter f.tail.edgeCounter) = f.tail.edgeCounter :=
    bits_placedIndex _ (of_decide_eq_true h)
  obtain ⟨rst, enable, busStarted, sclLevel, flags, st, sda, c⟩ := f
  exact congrArg (fun b => OpwFields.mk rst enable busStarted sclLevel flags ⟨st, sda, b⟩) hindex

/-- The SCL step placed with a micro-operation word is entered with that word. -/
theorem mow_placeMow (s : State) {m : Mow} (h : (mowIndex m).toNat < 18) :
    (s.placeMow m).latched.mow (mowRise m) = m := by
  have hindex : EdgeIndex.bits (s.placeMow m).latched.edgeCounter = mowIndex m := bits_placedIndex _ h
  rw [State.mow, hindex]
  exact packMow_of_fields m

/-- The event placed with a micro-operation word is a SCL step, on the edge of its bit 7 (R62). -/
theorem nextOp_placeMow (s : State) (m : Mow) :
    (s.placeMow m).nextOp = some (if mowRise m then .sclr else .sclf) := by
  have hop : (s.placeMow m).nextOp =
      some (dispatchChoice false true true (mowRise m) (mkFlags (!mowRise m) (mowRise m) false false)) :=
    nextOp_eq (s.placeMow m)
  rw [hop]
  cases mowRise m <;> rfl

end Sys2Proof.Machine
end

section
/-! CLAIMS. The encoding: the two tables, the decoder and the encoder, and the words the model places
(spec/30_encoding.md). -/

namespace Sys2Proof.Machine

/-! ## Decoder and encoder -/

/-- Settles O5, by the instruction: its own row selects its encoding, and the bits the row leaves open are its
operands. -/
theorem decodeEncodeAgree : Obligations.DecodeEncodeAgree := by
  intro i hw
  have hrow := selectedRow_encode hw
  cases i with
  | reset | hold | sclf | sclfIgn | sclr | sclrIgn | start | rstart | sdafIgn | stop | stopIgn | sdarIgn | nop =>
    exact decode_opw_of_selectedRow hrow (by simp [instrOf]) hw
  | b0rel | b0relRx | b0txld | sampleAddr | sampleRx | txbit | finrx | finaddr | ackslot | cntinc | cntincAck
  | cntwrap =>
    rw [encode, decode_mow_of_selectedRow hrow]
    simp [microInstr]

/-- Settles O6: the row that matches a word fixes the word's other bits. -/
theorem encodeDecodeAgree : Obligations.EncodeDecodeAgree := by
  intro w i hdecode
  cases w with
  | opw w =>
    obtain ⟨op, hop, rfl, hw⟩ := decodeOpw_eq_ok hdecode
    exact ⟨encode_instrOf hop, hw⟩
  | mow p m =>
    obtain ⟨r, hr, rfl, hhits, rfl⟩ := exists_row_of_microAt (decode_mow_eq_ok hdecode)
    exact encode_microInstr hr hhits

/-! ## The tables -/

/-- Settles O7: some row matches, no two rows do, and the table is read for the first. -/
theorem everyWordSelectsOneRow : Obligations.EveryWordSelectsOneRow := by
  intro w
  obtain ⟨op, hop⟩ := Option.isSome_iff_exists.mp (level1Op_isSome w)
  obtain ⟨r, hfind, rfl⟩ := Option.map_eq_some_iff.mp hop
  have hhits : r.hits w = true := by simpa using List.find?_some hfind
  have hr : r ∈ opwRows.filter (·.hits w) := List.mem_filter.mpr ⟨List.mem_of_find?_eq_some hfind, hhits⟩
  have hone : (opwRows.filter (·.hits w)).length = 1 :=
    Nat.le_antisymm (opwRows_filter_length_le_one w) (List.length_pos_of_mem hr)
  obtain ⟨q, hq⟩ := List.length_eq_one_iff.mp hone
  obtain rfl : r = q := by simpa [hq] using hr
  exact ⟨r, (List.mem_filter.mp hr).1, hq, hop⟩

/-- Settles O8: two rows of a phase differ on a bit both look at, and each row looks at enough of the index. -/
theorem oneRowPerPhase : Obligations.OneRowPerPhase := by
  intro m
  refine ⟨fun p => mowRows_filter_length_le_one p m, fun h18 => List.filter_eq_nil_iff.mpr fun r hr hhits => ?_⟩
  have := mowIndex_lt_of_hits hr hhits
  omega

/-- Settles O11: the 144 cells, evaluated column by column. -/
theorem flattenedTable : Obligations.FlattenedTable := by
  intro rise st
  cases rise <;> cases st <;> decide

/-- Settles O4: each word that decodes is the encoding of its instruction, and the two refused ones are evaluated. -/
theorem specWordsDecode : Obligations.SpecWordsDecode :=
  ⟨decodeEncodeAgree (.sclr true false false ⟨.addressPhase, false, 15⟩) rfl,
    decodeEncodeAgree (.sclf false false false false ⟨.transmitting, false, 2⟩) rfl,
    decodeEncodeAgree (.hold true false 0b1000 ⟨.addressPhase, false, 2⟩) rfl,
    decodeEncodeAgree (.reset true true false 0b1000 ⟨.transmitting, false, 5⟩) rfl,
    decodeEncodeAgree (.start false ⟨.idle, false, 0⟩) rfl,
    decodeEncodeAgree (.rstart false ⟨.receiving, false, 2⟩) rfl,
    decodeEncodeAgree (.stop ⟨.receiving, true, 2⟩) rfl,
    decodeEncodeAgree (.sdafIgn true false ⟨.receiving, false, 17⟩) rfl,
    by rfl,
    decodeEncodeAgree (.b0txld true) rfl,
    decodeEncodeAgree (.sampleAddr 3) rfl,
    decodeEncodeAgree (.finrx true) rfl,
    decodeEncodeAgree (.ackslot false .transmitting) rfl,
    decodeEncodeAgree (.cntinc false .transmitting 14) rfl,
    by rfl⟩

/-- Settles O12: the token table, row by row (R68). -/
theorem scriptTokenEvents : Obligations.ScriptTokenEvents := by
  intro a x y en fl
  refine ⟨?_, ?_, ?_, ?_, ?_, ?_, ?_, ?_, ?_, ?_⟩ <;> rfl

/-! ## The word of a step -/

/-- Settles O1: the state's index is in range, so its word decodes, and the step executes what it decodes to. -/
theorem stepRunsDecodedInstruction : Obligations.StepRunsDecodedInstruction := by
  intro s
  obtain ⟨op, hop⟩ := Option.isSome_iff_exists.mp (level1Op_isSome s.latched.opw)
  have hdecode := decodeOpw_opw s.latched hop
  obtain ⟨hencode, hw⟩ := encodeDecodeAgree (.opw s.latched.opw) _ hdecode
  exact ⟨_, hdecode, hw, hencode, by rw [step, runStep, runLatched_eq _ hop]⟩

/-- Settles O13: placing a word whose index a state can hold, then entering the event, gives back its fields. -/
theorem placedWordIsFetched : Obligations.PlacedWordIsFetched := by
  refine ⟨fun s w i _ hindex => ?_, fun s m i hi => ?_⟩
  · have hplace : s.withFetchWord 16 w.toNat = s.placeOpw (unpackOpw w) := by
      simp [State.withFetchWord, State.placeTableWord]
    rw [hplace, opw_eq, opwFields_placeOpw s hindex, packOpw_unpackOpw]
  · have hplace : s.withFetchWord 8 m.toNat = s.placeMow m := by
      simp [State.withFetchWord, State.placeTableWord]
    obtain ⟨p, hp⟩ := exists_phase_of_decodeTableWord hi
    obtain ⟨r, hr, -, hhits, rfl⟩ := exists_row_of_microAt hp
    rw [hplace]
    exact ⟨mow_placeMow s (mowIndex_lt_of_hits hr hhits), nextOp_placeMow s m,
      microInstr_mem_microOps hr hhits⟩

end Sys2Proof.Machine
end

section
/-! SUPPORT. What a clock cycle does to the synchronisers: with `rst = 0` they shift, whatever the operation of the
cycle is, with `rst = 1` they are set (spec/40_edge_detector.md). -/

namespace Sys2Proof.Machine

/-! ## The operation of a cycle and the synchronisers -/

/-- RESET is selected by `rst` alone (R90). -/
theorem nextOp_eq_reset_iff (s : State) : s.nextOp = some .reset ↔ s.latched.inp.rst = true := by
  refine ⟨selectedWhen_of_nextOp, fun hrst => ?_⟩
  rw [nextOp_eq, hrst]
  rfl

/-- No operation but RESET writes a synchroniser (R81, R190). -/
theorem opEffect_agree_synchronisers {op : Level1Op} (h : op ≠ .reset) (s : State) :
    s.agree (opEffect op s) .synchronisers := by
  cases op with
  | reset => exact absurd rfl h
  | sclf | sclr => exact sclStep_agree _ s (by decide)
  | start | rstart => exact startHandling_agree s (by decide)
  | stop => exact stop_agree s (by decide)
  | hold | sclfIgn | sclrIgn | sdafIgn | stopIgn | sdarIgn | nop => exact agree_refl s _

/-! ## The clock edge of a cycle -/

/-- `t` is a state after a cycle of `s` in which the synchronisers shifted and took the samples of the ports `c`
(R81). -/
structure Shifted (s : State) (c : CycleIn) (t : State) : Prop where
  sclPrev : t.sclPrev = s.sclSync
  sclSync : t.sclSync = s.sclMeta
  sclMeta : t.sclMeta = s.sampleScl c
  sdaPrev : t.sdaPrev = s.sdaSync
  sdaSync : t.sdaSync = s.sdaMeta
  sdaMeta : t.sdaMeta = s.sampleSda c

/-- With `rst = 0` the synchronisers shift, whatever `enable` is (R81, R85). -/
theorem shifted_of_step {s t : State} {c : CycleIn} (hc : s.nextCycle? = some c) (hrst : c.rst = false)
    (h : step s = .next t) : Shifted s c t := by
  obtain ⟨op, hop, rfl⟩ := step_cases h
  have hne : op ≠ .reset := by
    rintro rfl
    have := (nextOp_eq_reset_iff s).mp hop
    simp [latched_inp_of_cycle hc, State.cycleEvent, hrst] at this
  obtain ⟨hsclMeta, hsclSync, -, hsdaMeta, hsdaSync, -⟩ := opEffect_agree_synchronisers hne s.latched
  rw [finishStep_of_cycle hc, clockEdge, hrst]
  exact ⟨hsclSync.symm, hsclMeta.symm, rfl, hsdaSync.symm, hsdaMeta.symm, rfl⟩

/-- A cycle with `rst = 1` ends in the registers of RESET, and no sample is taken (R81, R190). -/
theorem step_of_reset_cycle {s : State} {c : CycleIn} (hc : s.nextCycle? = some c) (hrst : c.rst = true) :
    step s = .next s.latched.resetRegisters := by
  have hop : s.nextOp = some .reset := by
    rw [nextOp_eq_reset_iff, latched_inp_of_cycle hc]
    exact hrst
  rw [step_op hop, finishStep_of_cycle hc, clockEdge, if_pos hrst]
  rfl

/-- A step consumes the stimulus it takes (R84). -/
theorem script_of_step {s t : State} (h : step s = .next t) : t.script = s.script.tail := by
  obtain ⟨op, -, rfl⟩ := step_cases h
  obtain ⟨-, hfinish, -⟩ :=
    finishStep_agree s (opEffect op s.latched) s.nextStimulus (f := .surroundings) (by decide)
  obtain ⟨-, heffect, -⟩ := opEffect_agree_surroundings op s.latched
  exact hfinish.trans heffect.symm

/-- Every state has a next one (R170). -/
theorem exists_step (s : State) : ∃ t, step s = .next t := by
  obtain ⟨op, hop⟩ := Option.isSome_iff_exists.mp (level1Op_isSome s.latched.opw)
  exact ⟨_, step_op hop⟩

theorem nextCycle?_of_script {s : State} {c : CycleIn} {rest : List Stimulus} (h : s.script = .cycle c :: rest) :
    s.nextCycle? = some c := by
  simp [State.nextCycle?, State.nextStimulus, h]

/-! ## Samples and flags -/

/-- The sample of a pin at a definite level is that level (R86). -/
theorem samplePin_of_steady {p : Pin} (h : p ≠ .changing) (draw : Bool) : samplePin draw p = decide (p = .high) := by
  cases p with
  | low | high => rfl
  | changing => exact absurd rfl h

theorem not_decide_high_of_steady {p : Pin} (h : p ≠ .changing) : (!decide (p = .high)) = decide (p = .low) := by
  cases p with
  | low | high => rfl
  | changing => exact absurd rfl h

@[simp] theorem sdaFall_detectFlags (s : State) : sdaFall s.detectFlags = (s.sdaPrev && !s.sdaSync) :=
  (mkFlags_bits _ _ _ _).2.2.1

@[simp] theorem sdaRise_detectFlags (s : State) : sdaRise s.detectFlags = (!s.sdaPrev && s.sdaSync) :=
  (mkFlags_bits _ _ _ _).2.2.2

/-- The two flags of one line exclude each other (R82). -/
theorem not_fall_and_rise (prev sync : Bool) : ¬ ((prev && !sync) = true ∧ (!prev && sync) = true) := by
  revert prev sync; decide

/-- The newer sample of a line has the level its flag says, or without a flag that of the older (R82). -/
theorem level_of_flag (prev sync : Bool) :
    ((prev && !sync) = true → sync = false) ∧ ((!prev && sync) = true → sync = true) ∧
    ((prev && !sync || !prev && sync) = false → sync = prev) := by
  revert prev sync; decide

/-- Equal samples of both lines make no flag (R82). -/
theorem detectFlags_eq_zero {s : State} (hscl : s.sclPrev = s.sclSync) (hsda : s.sdaPrev = s.sdaSync) :
    s.detectFlags = 0 := by
  have hnone : mkFlags false false false false = 0 := by decide
  simpa [State.detectFlags, hscl, hsda] using hnone

/-! ## The SDA operations of a cycle -/

/-- START and RSTART are a falling SDA edge at SCL high, without a SCL edge (R93). -/
theorem event_of_start {s : State} (h : s.nextOp ∈ [some Level1Op.start, some .rstart]) :
    sclQuiet s.latched.inp ∧ s.latched.inp.sclLevel = true ∧ sdaFall s.latched.inp.flags = true := by
  simp only [List.mem_cons, List.not_mem_nil, or_false] at h
  obtain h | h := h <;> obtain ⟨-, hquiet, hfall, hscl, -⟩ := selectedWhen_of_nextOp h <;>
    exact ⟨hquiet, hscl, hfall⟩

/-- STOP and STOP.IGN are a rising SDA edge at SCL high, without a SCL edge (R93). -/
theorem event_of_stop {s : State} (h : s.nextOp ∈ [some Level1Op.stop, some .stopIgn]) :
    sclQuiet s.latched.inp ∧ s.latched.inp.sclLevel = true ∧ sdaRise s.latched.inp.flags = true := by
  simp only [List.mem_cons, List.not_mem_nil, or_false] at h
  obtain h | h := h <;> obtain ⟨-, hquiet, -, hrise, hscl, -⟩ := selectedWhen_of_nextOp h <;>
    exact ⟨hquiet, hscl, hrise⟩

/-- Without a SCL flag a high level is that of both samples (R83). -/
theorem scl_high_of_sclQuiet {s : State} {c : CycleIn} (hc : s.nextCycle? = some c) (hquiet : sclQuiet s.latched.inp)
    (hscl : s.latched.inp.sclLevel = true) : s.sclPrev = true ∧ s.sclSync = true := by
  rw [latched_inp_of_cycle hc] at hquiet hscl
  exact ⟨(sclPrev_eq_sclSync_of_sclQuiet hquiet).trans hscl, hscl⟩

end Sys2Proof.Machine
end

section
/-! CLAIMS. The edge detector: its synchronisers, its flags and their latency (spec/40_edge_detector.md). -/

namespace Sys2Proof.Machine

/-- Settles O55: after the cycle the previous sample is the one that made the flag, so it has the flag's level. -/
theorem detectorFlags : Obligations.DetectorFlags := by
  intro s
  simp only [sclFall_detectFlags, sclRise_detectFlags, sdaFall_detectFlags, sdaRise_detectFlags, true_and]
  refine ⟨not_fall_and_rise _ _, not_fall_and_rise _ _, fun c t hc hrst hstep => ?_⟩
  have hshift := shifted_of_step hc hrst hstep
  obtain ⟨hsclFall, hsclRise, hsclNone⟩ := level_of_flag s.sclPrev s.sclSync
  rw [hshift.sclPrev, hshift.sdaPrev]
  exact ⟨hsclFall, hsclRise, hsclNone, level_of_flag s.sdaPrev s.sdaSync⟩

/-- Settles O57: the first cycle captures the pins and moves the samples before them on, the second makes both those
that the flags compare. -/
theorem reactionLatency : Obligations.ReactionLatency := by
  intro s c d rest hscript hc hd hscl hsda
  obtain ⟨t, ht⟩ := exists_step s
  obtain ⟨u, hu⟩ := exists_step t
  have htail : t.script = .cycle d :: rest := by rw [script_of_step ht, hscript]; rfl
  have hfirst := shifted_of_step (nextCycle?_of_script hscript) hc ht
  have hsecond := shifted_of_step (nextCycle?_of_script htail) hd hu
  have hsclSync : u.sclSync = decide (c.sclPin = .high) :=
    hsecond.sclSync.trans (hfirst.sclMeta.trans (samplePin_of_steady hscl _))
  have hsdaSync : u.sdaSync = decide (c.sdaPin = .high) :=
    hsecond.sdaSync.trans (hfirst.sdaMeta.trans (samplePin_of_steady hsda _))
  refine ⟨u, (run_succ ht 1).trans (run_succ hu 0), ?_, hsclSync, hsdaSync⟩
  rw [State.detectFlags, hsclSync, hsdaSync, hsecond.sclPrev, hsecond.sdaPrev, hfirst.sclSync, hfirst.sdaSync,
    not_decide_high_of_steady hscl, not_decide_high_of_steady hsda]

/-- Settles O58: the levels are the samples the flags were made from (R83), and the recogniser asks for SCL high without
a SCL flag (R91, R93). -/
theorem startStopNeedStableScl : Obligations.StartStopNeedStableScl := by
  intro s c hc
  have hinp := latched_inp_of_cycle hc
  have hsclLevel : s.latched.inp.sclLevel = s.sclSync := by rw [hinp]; rfl
  have hsdaLevel : s.latched.inp.sdaLevel = s.sdaSync := by rw [hinp]; rfl
  have hflags : s.latched.inp.flags = s.detectFlags := by rw [hinp]; rfl
  obtain ⟨hlow, hhigh, -⟩ := level_of_flag s.sdaPrev s.sdaSync
  refine ⟨hsclLevel, hsdaLevel, fun hop => hsclLevel.trans (samples_of_sclOp (rise := false) hc hop).2,
    fun hop => hsclLevel.trans (samples_of_sclOp (rise := true) hc hop).2, fun hop => ?_, fun hop => ?_⟩
  · obtain ⟨hquiet, hscl, hfall⟩ := event_of_start hop
    obtain ⟨hprev, hsync⟩ := scl_high_of_sclQuiet hc hquiet hscl
    rw [hflags, sdaFall_detectFlags] at hfall
    exact ⟨hprev, hsync, hsdaLevel.trans (hlow hfall)⟩
  · obtain ⟨hquiet, hscl, hrise⟩ := event_of_stop hop
    obtain ⟨hprev, hsync⟩ := scl_high_of_sclQuiet hc hquiet hscl
    rw [hflags, sdaRise_detectFlags] at hrise
    exact ⟨hprev, hsync, hsdaLevel.trans (hhigh hrise)⟩

/-- Settles O56: the clock edge shifts past every operation but RESET, which sets all six registers. -/
theorem synchroniserShift : Obligations.SynchroniserShift := by
  intro s t c hc hstep
  refine ⟨fun hrst => ?_, fun hrst => ?_⟩
  · have hshift := shifted_of_step hc hrst hstep
    refine ⟨hshift.sclPrev, hshift.sclSync, hshift.sdaPrev, hshift.sdaSync, ?_, ?_, ?_, ?_⟩
    all_goals
      intro hp
      simp [hshift.sclMeta, hshift.sdaMeta, State.sampleScl, State.sampleSda, hp, samplePin]
  · rw [step_of_reset_cycle hc hrst] at hstep
    obtain rfl := Host.Outcome.next.inj hstep
    exact ⟨rfl, rfl, rfl, rfl, rfl, rfl, detectFlags_eq_zero rfl rfl⟩

end Sys2Proof.Machine
end

section
/-! SUPPORT. What selects an operation and what it reads: a word that a row matches selects that row's operation, no
operation reads the flag word, and the rows that match a micro-operation word do what the phases of R120 do. -/

namespace Sys2Proof

/-- A row that matches a word selects it: no other row does (R63). -/
theorem level1Op_of_row {r : OpwRow} (hr : r ∈ opwRows) {w : Opw} (h : w &&& r.mask = r.value) :
    level1Op w = some r.op := by
  obtain ⟨q, -, hq, hop⟩ := Machine.everyWordSelectsOneRow w
  have hmem : r ∈ [q] := hq ▸ List.mem_filter.mpr ⟨hr, beq_iff_eq.mpr h⟩
  obtain rfl := List.mem_singleton.mp hmem
  exact hop

/-- Some row matches every word, and it is the one selected (R63). -/
theorem exists_selecting_row (w : Opw) : ∃ r ∈ opwRows, w &&& r.mask = r.value ∧ level1Op w = some r.op := by
  obtain ⟨op, hop⟩ := Option.isSome_iff_exists.mp (level1Op_isSome w)
  obtain ⟨r, hfind, rfl⟩ := Option.map_eq_some_iff.mp hop
  have hhits : r.hits w = true := by simpa using List.find?_some hfind
  exact ⟨r, List.mem_of_find?_eq_some hfind, eq_of_beq hhits, hop⟩

/-- The rows that can match a word with `rst = 0`, `enable = 1` and no SCL flag: those of the SDA flags, and NOP's. -/
theorem quiet_rows : ∀ r ∈ opwRows, r.value &&& 0xCC00 = 0x4000 &&& r.mask →
    r.op ∈ [Level1Op.start, .rstart, .sdafIgn, .stop, .stopIgn, .sdarIgn] ∨ r = ⟨.nop, 0xCF00, 0x4000⟩ := by
  decide

/-- An enabled word with an SDA flag and no SCL flag selects an operation of the SDA flags (R91, R93). -/
theorem level1Op_of_sdaFlag {w : Opw} (hquiet : w &&& 0xCC00 = 0x4000) (hsda : w &&& 0x0300 ≠ 0x0000) :
    ∃ op ∈ [Level1Op.start, .rstart, .sdafIgn, .stop, .stopIgn, .sdarIgn], level1Op w = some op := by
  obtain ⟨r, hr, hrow, hop⟩ := exists_selecting_row w
  rcases quiet_rows r hr (values_agree_of_hits hrow hquiet) with hmem | rfl
  · exact ⟨r.op, hmem, hop⟩
  · refine absurd ?_ hsda
    calc w &&& 0x0300 = (w &&& 0xCF00) &&& 0x0300 := (BitVec.and_assoc w 0xCF00 0x0300).symm
      _ = 0x4000 &&& 0x0300 := congrArg (· &&& 0x0300) hrow

end Sys2Proof

namespace Sys2Proof.Machine

/-! ## The flag word is read by the dispatcher alone (R96) -/

/-- The order of R91 looks at no flag below the first set one. -/
theorem dispatchChoice_topFlag (rst enable busStarted sclLevel : Bool) (f : FlagWord) :
    dispatchChoice rst enable busStarted sclLevel (topFlag f) =
      dispatchChoice rst enable busStarted sclLevel f := by
  have htop : sclFall (topFlag f) = sclFall f ∧ sclRise (topFlag f) = (!sclFall f && sclRise f) ∧
      sdaFall (topFlag f) = (!sclFall f && !sclRise f && sdaFall f) ∧
      sdaRise (topFlag f) = (!sclFall f && !sclRise f && !sdaFall f && sdaRise f) := by revert f; decide
  obtain ⟨hfall, hrise, hsdaFall, hsdaRise⟩ := htop
  simp only [dispatchChoice, hfall, hrise, hsdaFall, hsdaRise]
  cases sclFall f <;> cases sclRise f <;> cases sdaFall f <;> rfl

/-- A state whose latched event has this flag word. -/
def State.withFlags (s : State) (f : FlagWord) : State := { s with inp := { s.inp with flags := f } }

section
variable (s : State) (f : FlagWord)

theorem txbit_withFlags : (s.withFlags f).txbit = s.txbit.withFlags f := by
  rw [txbit_eq, txbit_eq]; rfl

theorem finaddr_withFlags : (s.withFlags f).finaddr = s.finaddr.withFlags f := by
  by_cases h : receivedAddress s.activeByte = s.inp.busAddr
  · rw [finaddr_match h, finaddr_match (s := s.withFlags f) h]; rfl
  · rw [finaddr_mismatch h, finaddr_mismatch (s := s.withFlags f) h]; rfl

theorem ackslot_withFlags : (s.withFlags f).ackslot = s.ackslot.withFlags f := by
  rw [ackslot_eq, ackslot_eq]; rfl

theorem byteStartPhase_withFlags (c : EdgeIndex) (st : ProtocolState) :
    byteStartPhase c st (s.withFlags f) = (byteStartPhase c st s).withFlags f := by
  unfold byteStartPhase
  split_ifs <;> rfl

theorem dataBitPhase_withFlags (c : EdgeIndex) (st : ProtocolState) (rise : Bool) :
    dataBitPhase c st rise (s.withFlags f) = (dataBitPhase c st rise s).withFlags f := by
  unfold dataBitPhase
  split_ifs
  · rfl
  · exact txbit_withFlags s f
  · rfl
  · rfl

theorem finalisePhase_withFlags (c : EdgeIndex) (st : ProtocolState) :
    finalisePhase c st (s.withFlags f) = (finalisePhase c st s).withFlags f := by
  unfold finalisePhase
  split_ifs
  · rfl
  · exact finaddr_withFlags s f
  · rfl
  · rfl

theorem ackPhase_withFlags (c : EdgeIndex) : ackPhase c (s.withFlags f) = (ackPhase c s).withFlags f := by
  unfold ackPhase
  split_ifs
  · exact ackslot_withFlags s f
  · rfl

theorem counterPhase_withFlags (c : EdgeIndex) :
    counterPhase c (s.withFlags f) = (counterPhase c s).withFlags f := by
  unfold counterPhase
  split_ifs <;> rfl

theorem sclStep_withFlags (rise : Bool) : sclStep rise (s.withFlags f) = (sclStep rise s).withFlags f := by
  simp only [sclStep, ← counterPhase_withFlags, ← ackPhase_withFlags, ← finalisePhase_withFlags,
    ← dataBitPhase_withFlags, ← byteStartPhase_withFlags]
  rfl

/-- No operation reads the flag word once it is selected. -/
theorem opEffect_withFlags (op : Level1Op) : opEffect op (s.withFlags f) = (opEffect op s).withFlags f := by
  cases op with
  | sclf | sclr => exact sclStep_withFlags s f _
  | reset | hold | sclfIgn | sclrIgn | start | rstart | sdafIgn | stop | stopIgn | sdarIgn | nop => rfl

end

/-! ## The rows of a SCL step, phase by phase (R64, R120) -/

/-- The phases of a SCL step, in order (R120). -/
def phasesInOrder : List Phase := [.byteStart, .dataBit, .finalise, .ackSlot, .counter]

/-- The table of R64 lists its rows in phase order. -/
theorem mowRows_in_phase_order :
    mowRows = phasesInOrder.flatMap fun p => mowRows.filter fun r => decide (r.phase = p) := by
  decide

theorem filter_eq_toList_find? {α : Type} {l : List α} {p : α → Bool} (h : (l.filter p).length ≤ 1) :
    l.filter p = (l.find? p).toList := by
  rw [← List.head?_filter]
  rcases hl : l.filter p with _ | ⟨a, _ | ⟨b, t⟩⟩
  · rfl
  · rfl
  · simp [hl] at h

/-- The micro-operations of a word are those of its phases, one after another, since at most one row matches per
phase. -/
theorem microOps_eq_flatMap (m : Mow) : microOps m = phasesInOrder.flatMap fun p => (microAt p m).toList := by
  have hphase (p : Phase) : ((mowRows.filter fun r => decide (r.phase = p)).filter (·.hits m)).map
      (fun r => microInstr r.op m) = (microAt p m).toList := by
    rw [List.filter_filter, microAt, Option.toList_map, ← filter_eq_toList_find? (mowRows_filter_length_le_one p m)]
    simp only [Bool.and_comm]
  rw [microOps, mowRows_in_phase_order, List.filter_flatMap, List.map_flatMap]
  simp only [hphase]

/-- The four bits that the first row of CNTINC leaves open are the index (R129). -/
theorem indexOf4_ofNat {c : EdgeIndex} (h : c.val ≤ 15) : indexOf4 (BitVec.ofNat 4 c.val) = c := by
  revert c; decide

section
variable (rise : Bool) (st : ProtocolState) (c : EdgeIndex)

theorem microAt_byteStart :
    microAt .byteStart (packMow rise st (EdgeIndex.bits c)) =
      if c.val = 0 then
        if st ≠ .transmitting then
          if st = .receiving then some (.b0relRx rise) else some (.b0rel rise st)
        else some (.b0txld rise)
      else none := by
  cases rise <;> cases st <;> revert c <;> decide

theorem microAt_dataBit :
    microAt .dataBit (packMow rise st (EdgeIndex.bits c)) =
      if c.val ≤ 15 then
        if rise = true ∧ (st = .addressPhase ∨ st = .receiving) then
          if st = .addressPhase then some (.sampleAddr (BitVec.ofNat 4 c.val))
          else some (.sampleRx (BitVec.ofNat 4 c.val))
        else if rise = false ∧ st = .transmitting then some (.txbit (BitVec.ofNat 4 c.val))
        else none
      else none := by
  cases rise <;> cases st <;> revert c <;> decide

theorem microAt_finalise :
    microAt .finalise (packMow rise st (EdgeIndex.bits c)) =
      if c.val = 15 then
        if st = .receiving then some (.finrx rise)
        else if st = .addressPhase then some (.finaddr rise)
        else none
      else none := by
  cases rise <;> cases st <;> revert c <;> decide

theorem microAt_ackSlot :
    microAt .ackSlot (packMow rise st (EdgeIndex.bits c)) = if c.val = 16 then some (.ackslot rise st) else none := by
  cases rise <;> cases st <;> revert c <;> decide

theorem microAt_counter :
    microAt .counter (packMow rise st (EdgeIndex.bits c)) =
      if c.val = 17 then some (.cntwrap rise st)
      else if c.val = 16 then some (.cntincAck rise st)
      else some (.cntinc rise st (BitVec.ofNat 4 c.val)) := by
  cases rise <;> cases st <;> revert c <;> decide

variable (s : State)

theorem runMicro_byteStart :
    runMicro (microAt .byteStart (packMow rise st (EdgeIndex.bits c))).toList s = .next (byteStartPhase c st s) := by
  rw [microAt_byteStart, byteStartPhase]
  split_ifs <;> rfl

theorem runMicro_dataBit :
    runMicro (microAt .dataBit (packMow rise st (EdgeIndex.bits c))).toList s =
      .next (dataBitPhase c st rise s) := by
  rw [microAt_dataBit, dataBitPhase]
  split_ifs <;> rfl

theorem runMicro_finalise :
    runMicro (microAt .finalise (packMow rise st (EdgeIndex.bits c))).toList s = .next (finalisePhase c st s) := by
  rw [microAt_finalise, finalisePhase]
  split_ifs <;> rfl

theorem runMicro_ackSlot :
    runMicro (microAt .ackSlot (packMow rise st (EdgeIndex.bits c))).toList s = .next (ackPhase c s) := by
  rw [microAt_ackSlot, ackPhase]
  split_ifs <;> rfl

theorem runMicro_counter :
    runMicro (microAt .counter (packMow rise st (EdgeIndex.bits c))).toList s = .next (counterPhase c s) := by
  rw [microAt_counter, counterPhase]
  split_ifs with h17 h16
  · rfl
  · obtain rfl : c = 16 := Fin.ext h16
    rfl
  · exact congrArg (fun k => Host.Outcome.next (s.cntinc k)) (indexOf4_ofNat (by omega))

end

theorem runMicro_append {is : List Instr} {s t : State} (h : runMicro is s = .next t) (js : List Instr) :
    runMicro (is ++ js) s = runMicro js t := by
  rw [runMicro, List.foldl_append, ← runMicro, h, runMicro]

/-- The rows that match a SCL step's word do, one after another, what the step does. -/
theorem runMicro_microOps (rise : Bool) (s : State) :
    runMicro (microOps (s.mow rise)) s = .next (sclStep rise s) := by
  simp only [microOps_eq_flatMap, phasesInOrder, List.flatMap_cons, List.flatMap_nil, State.mow]
  rw [runMicro_append (runMicro_byteStart ..), runMicro_append (runMicro_dataBit ..),
    runMicro_append (runMicro_finalise ..), runMicro_append (runMicro_ackSlot ..),
    runMicro_append (runMicro_counter ..)]
  rfl

/-! ## Data passes through the operations of the SDA flags (R97) -/

section
variable (s : State) (x y : Byte) (b : Bool)

theorem startHandling_withData : (s.withData x y b).startHandling = s.startHandling.withData 0 y b := rfl

theorem stop_withData : (s.withData x y b).dropBus.appStop = s.dropBus.appStop.withData x y b := rfl

end

end Sys2Proof.Machine
end

section
/-! CLAIMS. The dispatcher: the operation an event selects, what it discards, and the operations that change nothing
(spec/41_dispatch.md). -/

namespace Sys2Proof.Machine

/-! ## The choice of the operation (R91, R96) -/

/-- Settles O9: `dispatchChoice` is this chain, with START's gate written the other way round. -/
theorem tableFollowsPriority : Obligations.TableFollowsPriority := by
  intro f
  rw [level1Op_packOpw_eq_dispatchChoice]
  cases f.busStarted <;> simp [dispatchChoice, sclFall, sclRise, sdaFall, sdaRise]

/-- Settles O10: the top flag alone selects the same operation, and no operation reads the flag word. -/
theorem losingFlagsAreDiscarded : Obligations.LosingFlagsAreDiscarded := by
  intro s e
  refine ⟨_, _, step_of_event rfl, step_of_event rfl, ?_⟩
  have hop : (s.given { e with flags := topFlag e.flags }).opOn { e with flags := topFlag e.flags } =
      (s.given e).opOn e := dispatchChoice_topFlag ..
  have hstart : (s.given { e with flags := topFlag e.flags }).enter { e with flags := topFlag e.flags } =
      ((s.given e).enter e).withFlags (topFlag e.flags) := rfl
  rw [State.after, State.after, hop, hstart, opEffect_withFlags]
  rfl

/-! ## The SCL operations (R102, R103) -/

/-- Settles O21: their rows select the words, and each phase of R120 is the row of R64 for that phase. -/
theorem sclStepRunsMatchingRows : Obligations.SclStepRunsMatchingRows := by
  refine ⟨fun w => ⟨?_, ?_⟩, fun a b c d tl s => ⟨?_, ?_⟩⟩
  · exact level1Op_of_row (r := ⟨.sclf, 0xE800, 0x6800⟩) (by decide)
  · exact level1Op_of_row (r := ⟨.sclr, 0xEC00, 0x6400⟩) (by decide)
  · exact ⟨_, rfl, rfl, runMicro_microOps false s⟩
  · exact ⟨_, rfl, rfl, runMicro_microOps true s⟩

/-! ## Operations that change nothing (R66 item 1) -/

/-- Settles O16: the event selects HOLD, so the step leaves what entry leaves. -/
theorem holdFreezes : Obligations.HoldFreezes := by
  refine ⟨fun w => level1Op_of_row (r := ⟨.hold, 0xC000, 0x0000⟩) (by decide), fun _ _ _ _ _ => rfl,
    fun s e hrst hen => ?_⟩
  have hop : (s.given e).opOn e = .hold := by simp [State.opOn, dispatchChoice, hrst, hen]
  have hafter : (s.given e).after e = (s.given e).enter e := by rw [State.after, hop]; rfl
  refine ⟨_, (step_of_event rfl).trans (congrArg _ hafter), rfl, fun f hout hsur => ?_⟩
  cases f with
  | outputs => exact absurd rfl hout
  | surroundings => exact absurd rfl hsur
  | synchronisers => exact ⟨rfl, rfl, rfl, rfl, rfl, rfl⟩
  | _ => rfl

/-- Settles O17: each operation's row selects its words, and its meaning is the identity. -/
theorem noEffectResults : Obligations.NoEffectResults := by
  refine ⟨fun w => ⟨?_, ?_, ?_, ?_, ?_, ?_⟩, fun _ _ _ _ _ _ => ⟨rfl, rfl, rfl, rfl, rfl, rfl⟩⟩
  · exact level1Op_of_row (r := ⟨.nop, 0xCF00, 0x4000⟩) (by decide)
  · exact level1Op_of_row (r := ⟨.sclfIgn, 0xE800, 0x4800⟩) (by decide)
  · exact level1Op_of_row (r := ⟨.sclrIgn, 0xEC00, 0x4400⟩) (by decide)
  · exact level1Op_of_row (r := ⟨.sdafIgn, 0xDE00, 0x4200⟩) (by decide)
  · exact level1Op_of_row (r := ⟨.sdarIgn, 0xDF00, 0x4100⟩) (by decide)
  · exact level1Op_of_row (r := ⟨.stopIgn, 0xFF00, 0x5100⟩) (by decide)

/-! ## The operations of the SDA flags (R97) -/

/-- Settles O47: of the six operations START and RSTART are one START handling, STOP drops the bus, and the other three
change nothing. -/
theorem sdaEventsCarryNoData : Obligations.SdaEventsCarryNoData := by
  refine ⟨fun w hquiet hsda => ?_, fun i s t hexec => ?_⟩
  · obtain ⟨op, hmem, hop⟩ := level1Op_of_sdaFlag hquiet hsda
    rw [hop]
    exact List.mem_map_of_mem (f := some) hmem
  · cases i with
    | start | rstart =>
      obtain rfl : s.startHandling = t := Host.Outcome.next.inj hexec
      exact ⟨fun _ => ⟨rfl, rfl, rfl, fun x y b => congrArg _ (startHandling_withData s x y b)⟩, False.elim⟩
    | stop =>
      obtain rfl : s.dropBus.appStop = t := Host.Outcome.next.inj hexec
      exact ⟨False.elim, fun _ => ⟨rfl, rfl, rfl, fun x y b => congrArg _ (stop_withData s x y b)⟩⟩
    | sdafIgn | stopIgn | sdarIgn =>
      obtain rfl : s = t := Host.Outcome.next.inj hexec
      exact ⟨False.elim, fun _ => ⟨rfl, rfl, rfl, fun _ _ _ => rfl⟩⟩
    | _ => exact ⟨False.elim, False.elim⟩

end Sys2Proof.Machine
end

section
/-! CLAIMS. The START/STOP recognizer: the words of START, RSTART and STOP, and the fields each writes
(spec/42_start_stop.md). -/

namespace Sys2Proof.Machine

/-! ## The bits a row fixes (R63) -/

/-- A word that a row matches has the row's value in every bit the row's mask holds. -/
theorem getLsbD_of_masked {w mask value : Opw} {i : Nat} (h : w &&& mask = value) (hi : mask.getLsbD i = true) :
    w.getLsbD i = value.getLsbD i := by
  rw [← h, BitVec.getLsbD_and, hi, Bool.and_true]

/-- `busStarted` is bit 13 of the word (R61). -/
theorem busStarted_of_masked {w mask value : Opw} (h : w &&& mask = value) (hmask : mask.getLsbD 13 = true) :
    (unpackOpw w).busStarted = value.getLsbD 13 :=
  getLsbD_of_masked h hmask

/-! ## START, repeated START and STOP (R110 to R112) -/

/-- Settles O18: START's row selects its words and fixes `busStarted`, and its meaning is the START handling. -/
theorem startResult : Obligations.StartResult := by
  refine ⟨fun w hrow => ⟨?_, ?_⟩, fun _ _ _ => rfl⟩
  · exact level1Op_of_row (r := ⟨.start, 0xFE00, 0x5200⟩) (by decide) hrow
  · exact busStarted_of_masked hrow (by decide)

/-- Settles O19: RSTART's row selects its words and fixes `busStarted`, and its meaning is the START handling too. -/
theorem rstartResult : Obligations.RstartResult := by
  refine ⟨fun w hrow => ⟨?_, ?_⟩, fun _ _ _ => rfl⟩
  · exact level1Op_of_row (r := ⟨.rstart, 0xFE00, 0x7200⟩) (by decide) hrow
  · exact busStarted_of_masked hrow (by decide)

/-- Settles O20: STOP's row selects its words, and its meaning drops the bus, then issues the notification. -/
theorem stopResult : Obligations.StopResult := by
  refine ⟨fun w hrow => ?_, fun _ _ => rfl⟩
  exact level1Op_of_row (r := ⟨.stop, 0xFF00, 0x7100⟩) (by decide) hrow

end Sys2Proof.Machine
end

section
/-! SUPPORT. What selects a micro-operation, and which inputs a transmitted frame reads. -/

namespace Sys2Proof.Machine

/-! ## The row that selects a micro-operation (R64) -/

/-- A row that matches a word selects it in the row's phase: no other row of that phase does (R64). -/
theorem microAt_of_row {r : MowRow} (hr : r ∈ mowRows) {m : Mow} (h : m &&& r.mask = r.value) :
    microAt r.phase m = some (microInstr r.op m) := by
  have hhits : r.hits m = true := beq_iff_eq.mpr h
  have hmem : r ∈ mowRows.filter fun q => decide (q.phase = r.phase) && q.hits m :=
    List.mem_filter.mpr ⟨hr, by simp [hhits]⟩
  rw [filter_eq_toList_find? (mowRows_filter_length_le_one r.phase m), Option.mem_toList] at hmem
  rw [microAt, hmem, Option.map_some]

/-! ## The operands of SAMPLE and CNTINC (R124, R129) -/

theorem shiftIn_eq (b : Byte) (bit : Bool) : shiftIn b bit = (b <<< 1) ||| (if bit then 1 else 0) := by
  cases bit <;> rfl

theorem indexOf4_val (k : BitVec 4) : (indexOf4 k).val = k.toNat :=
  Nat.mod_eq_of_lt (by omega)

theorem nextIndex_indexOf4_val (k : BitVec 4) : (nextIndex (indexOf4 k)).val = k.toNat + 1 := by
  have h17 : (indexOf4 k).val ≠ 17 := by rw [indexOf4_val]; omega
  rw [nextIndex_val h17, indexOf4_val]

/-! ## In Transmitting `tx_data` is the only input read (R122, R127) -/

/-- A state with this input record latched. -/
def State.withInputs (s : State) (e : EventIn) : State := { s with inp := e }

section
variable {s : State} {e : EventIn} (ht : s.protocolState = .transmitting) (htx : e.txData = s.inp.txData)
include ht htx

/-- B0TXLD reads the byte at index 0; the bits, the ACK slot and the wrap read registers alone. -/
theorem sclStep_withInputs (rise : Bool) : sclStep rise (s.withInputs e) = (sclStep rise s).withInputs e := by
  have hcell : s.edgeCounter.val = 0 ∨ (1 ≤ s.edgeCounter.val ∧ s.edgeCounter.val ≤ 15) ∨
      s.edgeCounter.val = 16 ∨ s.edgeCounter.val = 17 := by omega
  obtain h0 | ⟨h1, h15⟩ | h16 | h17 := hcell
  · cases rise with
    | false =>
      rw [sclStep_zero_fall_transmitting h0 ht, sclStep_zero_fall_transmitting (s := s.withInputs e) h0 ht, ← htx]
      rfl
    | true =>
      rw [sclStep_zero_rise_transmitting h0 ht, sclStep_zero_rise_transmitting (s := s.withInputs e) h0 ht, ← htx]
      rfl
  · cases rise with
    | false => rw [sclStep_fall_transmitting ht h1 h15, sclStep_fall_transmitting (s := s.withInputs e) ht h1 h15]; rfl
    | true => rw [sclStep_rise_transmitting ht h1 h15, sclStep_rise_transmitting (s := s.withInputs e) ht h1 h15]; rfl
  · rw [sclStep_ack rise h16, sclStep_ack (s := s.withInputs e) rise h16]; rfl
  · rw [sclStep_wrap rise h17, sclStep_wrap (s := s.withInputs e) rise h17]; rfl

theorem opEffect_withInputs (op : Level1Op) : opEffect op (s.withInputs e) = (opEffect op s).withInputs e := by
  cases op with
  | sclf | sclr => exact sclStep_withInputs ht htx _
  | reset | hold | sclfIgn | sclrIgn | start | rstart | sdafIgn | stop | stopIgn | sdarIgn | nop => rfl

end

end Sys2Proof.Machine
end

section
/-! CLAIMS. The bit-state machine: the rows and the results of the micro-operations of phases 1, 2 and 5, what ends a
data transfer, and what is not read back in it (spec/43_bit_engine.md). -/

namespace Sys2Proof.Machine

/-! ## Transmitting and Receiving (R127, R131) -/

/-- Settles O42: of the transitions of R13 a compare starts in AddressPhase, and the others are the excluded
operations. -/
theorem dataStatesPersist : Obligations.DataStatesPersist := by
  intro s t hstep hdata hop
  by_contra hne
  obtain ⟨-, hstart⟩ | ⟨haddr, -⟩ | ⟨-, hstop, -⟩ | ⟨-, hreset⟩ := stateTransitionsComplete s t hstep hne
  · rcases hstart with h | h <;> simp [h] at hop
  · simp [haddr] at hdata
  · simp [hstop] at hop
  · simp [hreset] at hop

/-- Settles O46: the operation is selected without the SDA level, and its effect in Transmitting reads no input but
`tx_data`. -/
theorem noReadbackWhileTransmitting : Obligations.NoReadbackWhileTransmitting := by
  intro s t e ht _ hstep b
  obtain rfl := Host.Outcome.next.inj ((step_of_event rfl).symm.trans hstep)
  have hafter : (s.given { e with sdaLevel := b }).after { e with sdaLevel := b } =
      ((s.given e).after e).withInputs { e with sdaLevel := b } :=
    opEffect_withInputs (s := (s.given e).enter e) (e := { e with sdaLevel := b }) ht rfl _
  refine ⟨_, step_of_event rfl, ?_⟩
  rw [hafter]
  rfl

/-! ## Phase 1: byte start (R121, R122) -/

/-- Settles O22: each row selects its words, and both meanings are B0REL. -/
theorem b0relResult : Obligations.B0relResult := by
  refine ⟨fun m => ⟨?_, ?_⟩, fun _ _ _ => ⟨rfl, rfl⟩⟩
  · exact microAt_of_row (r := ⟨.byteStart, .b0rel, 0x5F, 0x00⟩) (by decide)
  · exact microAt_of_row (r := ⟨.byteStart, .b0relRx, 0x7F, 0x40⟩) (by decide)

/-- Settles O23: the row selects its words, and the meaning is B0TXLD. -/
theorem b0txldResult : Obligations.B0txldResult := by
  refine ⟨fun m => ?_, fun _ _ => rfl⟩
  exact microAt_of_row (r := ⟨.byteStart, .b0txld, 0x7F, 0x60⟩) (by decide)

/-! ## Phase 2: the data bit (R124, R125) -/

/-- Settles O24: each row selects its words, and both meanings shift the sampled level in. -/
theorem sampleResult : Obligations.SampleResult := by
  refine ⟨fun m => ⟨?_, ?_⟩, fun _ s => ?_⟩
  · exact microAt_of_row (r := ⟨.dataBit, .sampleAddr, 0xF0, 0xA0⟩) (by decide)
  · exact microAt_of_row (r := ⟨.dataBit, .sampleRx, 0xF0, 0xC0⟩) (by decide)
  · rw [← shiftIn_eq, ← sample_eq]
    exact ⟨rfl, rfl⟩

/-- Settles O25: the row selects its words, and the meaning is TXBIT. -/
theorem txbitResult : Obligations.TxbitResult := by
  refine ⟨fun m => ?_, fun _ s => congrArg Host.Outcome.next (txbit_eq s)⟩
  exact microAt_of_row (r := ⟨.dataBit, .txbit, 0xF0, 0x60⟩) (by decide)

/-! ## Phase 5: the counter (R129, R130) -/

/-- Settles O30: each row selects its words, and its meaning counts on from the index its words hold. -/
theorem cntincResult : Obligations.CntincResult := by
  refine ⟨fun m => ⟨?_, ?_⟩, fun _ _ k _ => ⟨⟨_, nextIndex_indexOf4_val k, rfl⟩, rfl⟩⟩
  · exact microAt_of_row (r := ⟨.counter, .cntinc, 0x10, 0x00⟩) (by decide)
  · exact microAt_of_row (r := ⟨.counter, .cntincAck, 0x1F, 0x10⟩) (by decide)

/-- Settles O31: the row selects its words, and the meaning is CNTWRAP. -/
theorem cntwrapResult : Obligations.CntwrapResult := by
  refine ⟨fun m => ?_, fun _ _ _ => rfl⟩
  exact microAt_of_row (r := ⟨.counter, .cntwrap, 0x1F, 0x11⟩) (by decide)

end Sys2Proof.Machine
end

section
/-! SUPPORT. The end of a listening frame: what a SCL step does to the pin before the ACK slot and to the address state,
and the two events at index 15 and 16. -/

namespace Sys2Proof.Machine

/-! ## The pin of a listening frame (R121, R143) -/

/-- Up to index 15 a SCL step of a listening frame leaves the pin as it was, released at index 0 (R121, R143). -/
theorem sclStep_sdaLow_of_listening {s : State} (rise : Bool) (hl : s.listening) (hi : s.edgeCounter.val ≤ 15) :
    (sclStep rise s).sdaLow = if s.edgeCounter.val = 0 then false else s.sdaLow := by
  obtain h14 | h15 : s.edgeCounter.val ≤ 14 ∨ s.edgeCounter.val = 15 := by omega
  · rw [sclStep_listening rise hl h14]
  · rw [if_neg (by omega)]
    obtain haddr | hrx := hl
    · by_cases hm : receivedAddress (sampledByte rise .addressPhase s.activeByte s.inp.sdaLevel) = s.inp.busAddr
      · rw [sclStep_last_match rise h15 haddr hm]
      · rw [sclStep_last_mismatch rise h15 haddr hm]
    · rw [sclStep_last_receiving rise h15 hrx]

/-! ## The states a SCL step leads to (R13) -/

/-- The compare of index 15 leaves AddressPhase, whatever its result (R142, R143). -/
theorem sclStep_ne_addressPhase {s : State} (rise : Bool) (h15 : s.edgeCounter.val = 15)
    (haddr : s.protocolState = .addressPhase) : (sclStep rise s).protocolState ≠ .addressPhase := by
  by_cases hm : receivedAddress (sampledByte rise .addressPhase s.activeByte s.inp.sdaLevel) = s.inp.busAddr
  · rw [sclStep_last_match rise h15 haddr hm]
    dsimp only
    split <;> decide
  · rw [sclStep_last_mismatch rise h15 haddr hm]
    simp

/-- A SCL step does not enter AddressPhase, and it leaves it at index 15. -/
theorem addressPhase_of_sclStep {s : State} {rise : Bool} (h : (sclStep rise s).protocolState = .addressPhase) :
    s.protocolState = .addressPhase ∧ s.edgeCounter.val ≠ 15 := by
  by_cases hc : s.edgeCounter.val = 15 ∧ s.protocolState = .addressPhase
  · obtain ⟨h15, haddr⟩ := hc
    exact absurd h (sclStep_ne_addressPhase rise h15 haddr)
  · have haddr := (sclStep_control rise hc).1.symm.trans h
    exact ⟨haddr, fun h15 => hc ⟨h15, haddr⟩⟩

/-- A SCL step does not make the engine listen: the frame before it was a listening one. -/
theorem listening_of_sclStep {s : State} {rise : Bool} (h : (sclStep rise s).listening) : s.listening := by
  by_cases hc : s.edgeCounter.val = 15 ∧ s.protocolState = .addressPhase
  · exact .inl hc.2
  · rwa [State.listening, (sclStep_control rise hc).1] at h

/-! ## An event with an SCL edge -/

/-- An enabled event with an SCL flag is a SCL step of an open transaction, falling when both flags are set (R91). -/
theorem edgeOf_openOp {e : EventIn} (hrst : e.rst = false) (hen : e.enable = true)
    (hflag : (sclFall e.flags || sclRise e.flags) = true) : edgeOf (openOp e) = some (!sclFall e.flags) := by
  cases hfall : sclFall e.flags <;> simp_all [openOp, dispatchChoice, edgeOf]

theorem latched_of_event {s : State} {e : EventIn} {rest : List Stimulus} (h : s.script = .event e :: rest) :
    s.latched = s.enter e := by
  simp [State.latched, State.nextStimulus, h, State.eventOf]

/-- The compare of an event with an SCL edge looks at `finalByte` (R140). -/
theorem sampledByte_of_event {s : State} {e : EventIn} {rest : List Stimulus} {rise : Bool}
    (h : s.script = .event e :: rest) (hopen : s.busStarted = true) (hedge : edgeOf (openOp e) = some rise) :
    sampledByte rise .addressPhase s.activeByte e.sdaLevel = s.finalByte := by
  have hop : s.nextOp = some (sclOp rise) := by
    rw [nextOp_eq, latched_of_event h, hopen]
    exact congrArg some (eq_sclOp_of_edge hedge)
  rw [← sampledByte_eq_finalByte hop, latched_of_event h, enter_inp]

/-! ## The ACK slot (R145) -/

/-- The event of index 16 shows `needAck` on the pin and clears it. -/
theorem after_at_ackSlot {u : State} {f : EventIn} {rise : Bool} (hopen : u.busStarted = true)
    (h16 : u.edgeCounter.val = 16) (hedge : edgeOf (openOp f) = some rise) :
    (u.after f).sdaLow = u.needAck ∧ (u.after f).needAck = false ∧ (u.after f).edgeCounter = 17 := by
  have h17 : nextIndex u.edgeCounter = 17 := by rw [show u.edgeCounter = 16 from Fin.ext h16]; rfl
  rw [after_of_edge hopen hedge, sclStep_ack (s := u.enter f) rise h16]
  exact ⟨rfl, rfl, h17⟩

/-- Two SCL events from index 15: the first finalises the byte, the second shows the `needAck` this left. -/
theorem run_two_from_last {s : State} {e f : EventIn} {rest : List Stimulus} {rise rise' : Bool}
    (hscript : s.script = .event e :: .event f :: rest) (hopen : s.busStarted = true) (h15 : s.edgeCounter.val = 15)
    (he : edgeOf (openOp e) = some rise) (hf : edgeOf (openOp f) = some rise')
    (hstays : (sclStep rise (s.enter e)).busStarted = true) :
    ∃ t, core.run 2 s = .next t ∧ t.sdaLow = (sclStep rise (s.enter e)).needAck ∧ t.needAck = false ∧
      t.edgeCounter = 17 := by
  have hrun : core.run 2 s = .next ((s.after e).after f) := (run_events (es := [e, f]) hscript).1
  have h16 : (sclStep rise (s.enter e)).edgeCounter.val = 16 := by simp [sclStep_edgeCounter, h15]
  rw [← after_of_edge hopen he] at hstays h16 ⊢
  exact ⟨_, hrun, after_at_ackSlot hstays h16 hf⟩

end Sys2Proof.Machine
end

section
/-! CLAIMS. Byte finalisation and the ACK generator: the released pin while the engine listens, the answer in the ACK
slot, and the rows and results of the micro-operations of phases 3 and 4 (spec/44_byte_ack.md). -/

namespace Sys2Proof.Machine

/-! ## The released pin (R121, R143) -/

/-- The invariant speaks of the protocol registers alone. -/
theorem quietInv_finishStep {pre post : State} {x : Stimulus} (h : post.QuietInv) :
    (finishStep pre post x).QuietInv := by
  obtain ⟨hindex, haddr, hrx⟩ := h
  exact ⟨by simpa using hindex, by simpa using haddr, by simpa using hrx⟩

theorem quietInv_latched {s : State} (h : s.QuietInv) : s.latched.QuietInv :=
  ⟨h.addressIndex, h.addressQuiet, h.receiveQuiet⟩

/-- From index 1 to the ACK slot the pin of a listening frame is released, whichever of the two it is. -/
theorem State.QuietInv.released {s : State} (h : s.QuietInv) (hl : s.listening) (h1 : 1 ≤ s.edgeCounter.val)
    (h16 : s.edgeCounter.val ≤ 16) : s.sdaLow = false := by
  obtain haddr | hrx := hl
  · exact h.addressQuiet haddr h1
  · exact h.receiveQuiet hrx h1 h16

/-- Whatever frame goes on after a SCL step, the pin was released at index 0 or before, up to the ACK slot. -/
theorem sclStep_released {s : State} {rise : Bool} (h : s.QuietInv) (hl : (sclStep rise s).listening)
    (h1 : 1 ≤ (sclStep rise s).edgeCounter.val) (h16 : (sclStep rise s).edgeCounter.val ≤ 16) :
    (sclStep rise s).sdaLow = false := by
  have hbefore := listening_of_sclStep hl
  have h15 : s.edgeCounter.val ≤ 15 := by
    have hnext := sclStep_edgeCounter rise s
    split at hnext <;> omega
  rw [sclStep_sdaLow_of_listening rise hbefore h15]
  split
  · rfl
  · exact h.released hbefore (by omega) (by omega)

theorem quietInv_sclStep {s : State} (rise : Bool) (h : s.QuietInv) : (sclStep rise s).QuietInv where
  addressIndex haddr := by
    obtain ⟨hbefore, h15⟩ := addressPhase_of_sclStep haddr
    have hle := h.addressIndex hbefore
    rw [sclStep_edgeCounter]
    split <;> omega
  addressQuiet haddr h1 := by
    obtain ⟨hbefore, -⟩ := addressPhase_of_sclStep haddr
    have hle := h.addressIndex hbefore
    refine sclStep_released h (.inl haddr) h1 ?_
    rw [sclStep_edgeCounter]
    split <;> omega
  receiveQuiet hrx h1 h16 := sclStep_released h (.inr hrx) h1 h16

/-- A START begins an address frame at index 0, where nothing is said of the pin (R110). -/
theorem quietInv_startHandling (s : State) : s.startHandling.QuietInv where
  addressIndex := by simp [State.startHandling]
  addressQuiet := by simp [State.startHandling]
  receiveQuiet := by simp [State.startHandling]

theorem quietInv_opEffect {s : State} (op : Level1Op) (h : s.QuietInv) : (opEffect op s).QuietInv := by
  cases op with
  | hold | sclfIgn | sclrIgn | sdafIgn | stopIgn | sdarIgn | nop => exact h
  | reset | stop => exact quietInv_of_idle rfl
  | sclf | sclr => exact quietInv_sclStep _ h
  | start | rstart => exact quietInv_startHandling s

/-- Settles O38: entry and the clock edge write no protocol register, and each operation keeps the invariant. -/
theorem quietWhileListening : Obligations.QuietWhileListening := by
  intro s t hquiet hstep
  obtain ⟨op, -, rfl⟩ := step_cases hstep
  exact quietInv_finishStep (quietInv_opEffect op (quietInv_latched hquiet))

/-! ## The answer in the ACK slot (R146) -/

/-- Settles O53: the event of index 15 sets `needAck`, by the application's answer or by the match, and the event of
index 16 shows it. -/
theorem ackFidelity : Obligations.AckFidelity := by
  intro s e f rest hopen hindex hscript herst heen heflag hfrst hfen hfflag
  have he := edgeOf_openOp herst heen heflag
  have hf := edgeOf_openOp hfrst hfen hfflag
  have h15 : s.edgeCounter.val = 15 := congrArg Fin.val hindex
  have hshown := run_two_from_last hscript hopen h15 he hf
  refine ⟨fun hrx => ?_, fun haddr hmatch => ?_⟩
  · rw [sclStep_last_receiving (s := s.enter e) _ h15 hrx] at hshown
    exact hshown hopen
  · rw [← sampledByte_of_event hscript hopen he] at hmatch
    rw [sclStep_last_match (s := s.enter e) _ h15 haddr hmatch] at hshown
    exact hshown hopen

/-! ## Phase 3: finalisation (R141 to R143) -/

/-- Settles O26: the row selects its words, and the meaning is FINRX. -/
theorem finrxResult : Obligations.FinrxResult := by
  refine ⟨fun m => ?_, fun _ s => congrArg Host.Outcome.next (finrx_eq s)⟩
  exact microAt_of_row (r := ⟨.finalise, .finrx, 0x7F, 0x4F⟩) (by decide)

/-- Settles O27: the row selects its words, and the meaning is FINADDR, here on a match. -/
theorem finaddrMatchResult : Obligations.FinaddrMatchResult := by
  refine ⟨fun m => ?_, fun _ _ hmatch => congrArg Host.Outcome.next (finaddr_match hmatch)⟩
  exact microAt_of_row (r := ⟨.finalise, .finaddr, 0x7F, 0x2F⟩) (by decide)

/-- Settles O28: the meaning is FINADDR, here on a mismatch. -/
theorem finaddrMismatchResult : Obligations.FinaddrMismatchResult :=
  fun _ _ hne => congrArg Host.Outcome.next (finaddr_mismatch hne)

/-! ## Phase 4: the ACK slot (R145) -/

/-- Settles O29: the row selects its words, and the meaning is ACKSLOT, which leaves a `needAck` of 0 as it is. -/
theorem ackslotResult : Obligations.AckslotResult := by
  refine ⟨fun m => ?_, fun _ _ s => ⟨fun hack => ?_, fun hack => ?_⟩⟩
  · exact microAt_of_row (r := ⟨.ackSlot, .ackslot, 0x1F, 0x10⟩) (by decide)
  · exact congrArg Host.Outcome.next ((ackslot_eq s).trans (by rw [hack]))
  · exact congrArg Host.Outcome.next ((ackslot_eq s).trans (by rw [hack]))

end Sys2Proof.Machine
end

section
/-! SUPPORT. The notifications of a step: which strobe its operation issues, with its arguments, and that every other
output is 0. -/

namespace Sys2Proof.Machine

/-! ## The outputs of a SCL step (R122, R141, R142) -/

/-- At index 0 in Transmitting a SCL step asks for the next byte, on either edge (R122). -/
theorem sclStep_out_request {s : State} (rise : Bool) (h0 : s.edgeCounter.val = 0)
    (htx : s.protocolState = .transmitting) : (sclStep rise s).out = { s.out with txReq := true } := by
  cases rise with
  | false => rw [sclStep_zero_fall_transmitting h0 htx]
  | true => rw [sclStep_zero_rise_transmitting h0 htx]

/-- Apart from the request at index 0 and the finalisation at index 15, a SCL step writes no output. -/
theorem sclStep_out_quiet {s : State} (rise : Bool)
    (hreq : ¬ (s.edgeCounter.val = 0 ∧ s.protocolState = .transmitting))
    (hfin : s.edgeCounter.val = 15 → s.protocolState ≠ .receiving ∧ s.protocolState ≠ .addressPhase) :
    (sclStep rise s).out = s.out := by
  obtain h0 | ⟨h1, h14⟩ | h15 | h16 | h17 : s.edgeCounter.val = 0 ∨
      (1 ≤ s.edgeCounter.val ∧ s.edgeCounter.val ≤ 14) ∨ s.edgeCounter.val = 15 ∨ s.edgeCounter.val = 16 ∨
      s.edgeCounter.val = 17 := by
    have := s.edgeCounter.isLt
    omega
  · rw [sclStep_zero_listen rise h0 fun htx => hreq ⟨h0, htx⟩]
  · rw [sclStep_middle rise h1 h14]
    split <;> rfl
  · rw [sclStep_last_other rise h15 (hfin h15)]
    split <;> rfl
  · rw [sclStep_ack rise h16]
  · rw [sclStep_wrap rise h17]

/-- The byte a SCL step finalises, in either frame it listens in, is `finalByte` (R140). -/
theorem sampledByte_receiving_eq_finalByte {s : State} {rise : Bool} (h : s.nextOp = some (sclOp rise)) :
    sampledByte rise .receiving s.activeByte s.latched.inp.sdaLevel = s.finalByte := by
  rw [← sampledByte_eq_finalByte h]
  simp [sampledByte]

/-! ## The notification of a step (R151 to R154) -/

/-- The step from `s` may end with these outputs: the notification of its operation, or none, and why. -/
inductive Notifies (s : State) : Outputs → Prop where
  /-- STOP tells the application that the transaction has ended (R154). -/
  | stop (hop : s.nextOp = some .stop) : Notifies s { Outputs.zero with stopEvt := true }
  /-- The byte to send is asked for (R153). -/
  | request (hscl : s.nextIsSclStep) (h0 : s.edgeCounter.val = 0) (htx : s.protocolState = .transmitting) :
    Notifies s { Outputs.zero with txReq := true }
  /-- A received byte is handed over (R152). -/
  | received (hscl : s.nextIsSclStep) (h15 : s.edgeCounter.val = 15) (hrx : s.protocolState = .receiving) :
    Notifies s { Outputs.zero with rxValid := true, rxData := s.finalByte }
  /-- The engine's address was called (R151). -/
  | addressed (hscl : s.nextIsSclStep) (h15 : s.edgeCounter.val = 15) (haddr : s.protocolState = .addressPhase)
    (hmatch : receivedAddress s.finalByte = s.latched.inp.busAddr) :
    Notifies s { Outputs.zero with
      addrMatch := true, addrIsRead := directionBit s.finalByte, addrIsRestart := s.busRestarted }
  /-- The operation has no notification. -/
  | silent (hstop : s.nextOp ≠ some .stop)
    (hreq : ¬ (s.nextIsSclStep ∧ s.edgeCounter.val = 0 ∧ s.protocolState = .transmitting))
    (hrx : ¬ (s.nextIsSclStep ∧ s.edgeCounter.val = 15 ∧ s.protocolState = .receiving))
    (haddr : ¬ (s.nextIsSclStep ∧ s.edgeCounter.val = 15 ∧ s.protocolState = .addressPhase ∧
      receivedAddress s.finalByte = s.latched.inp.busAddr)) : Notifies s Outputs.zero

/-- An operation that is neither STOP nor a SCL step has no notification. -/
theorem notifies_zero_of_nextOp {s : State} (hstop : s.nextOp ≠ some .stop) (hscl : ¬ s.nextIsSclStep) :
    Notifies s Outputs.zero :=
  .silent hstop (fun h => hscl h.1) (fun h => hscl h.1) (fun h => hscl h.1)

theorem nextOp_ne_stop_of_sclStep {s : State} (h : s.nextIsSclStep) : s.nextOp ≠ some .stop := by
  obtain hop | hop := h <;> simp [hop]

/-- The end of an address frame: the compare decides (R142, R143). -/
theorem notifies_of_compare {s : State} {rise : Bool} (hop : s.nextOp = some (sclOp rise))
    (h15 : s.edgeCounter.val = 15) (haddr : s.protocolState = .addressPhase) :
    Notifies s (sclStep rise s.latched).out := by
  have hscl : s.nextIsSclStep := (nextIsSclStep_iff s).mpr ⟨rise, hop⟩
  have hbyte := sampledByte_eq_finalByte hop
  by_cases hmatch : receivedAddress s.finalByte = s.latched.inp.busAddr
  · rw [sclStep_last_match (s := s.latched) rise h15 haddr (by rwa [latched_activeByte, hbyte]), latched_activeByte,
      hbyte]
    exact .addressed hscl h15 haddr hmatch
  · rw [sclStep_last_mismatch (s := s.latched) rise h15 haddr (by rwa [latched_activeByte, hbyte])]
    exact .silent (nextOp_ne_stop_of_sclStep hscl) (by simp [h15]) (by simp [haddr]) (by simp [hmatch])

/-- A SCL step notifies by its index and state. -/
theorem notifies_of_sclOp {s : State} {rise : Bool} (hop : s.nextOp = some (sclOp rise)) :
    Notifies s (sclStep rise s.latched).out := by
  have hscl : s.nextIsSclStep := (nextIsSclStep_iff s).mpr ⟨rise, hop⟩
  by_cases hreq : s.edgeCounter.val = 0 ∧ s.protocolState = .transmitting
  · obtain ⟨h0, htx⟩ := hreq
    rw [sclStep_out_request (s := s.latched) rise h0 htx]
    exact .request hscl h0 htx
  by_cases hrx : s.edgeCounter.val = 15 ∧ s.protocolState = .receiving
  · obtain ⟨h15, hrx⟩ := hrx
    rw [sclStep_last_receiving (s := s.latched) rise h15 hrx, latched_activeByte,
      sampledByte_receiving_eq_finalByte hop]
    exact .received hscl h15 hrx
  by_cases haddr : s.edgeCounter.val = 15 ∧ s.protocolState = .addressPhase
  · exact notifies_of_compare hop haddr.1 haddr.2
  · rw [sclStep_out_quiet (s := s.latched) rise hreq fun h15 => ⟨fun h => hrx ⟨h15, h⟩, fun h => haddr ⟨h15, h⟩⟩]
    exact .silent (nextOp_ne_stop_of_sclStep hscl) (fun ⟨_, h⟩ => hreq h) (fun ⟨_, h⟩ => hrx h)
      (fun ⟨_, h15, h, _⟩ => haddr ⟨h15, h⟩)

/-- Everything a step can tell the application, said once. -/
theorem notifies_of_step {s t : State} (h : step s = .next t) : Notifies s t.out := by
  obtain ⟨op, hlevel, rfl⟩ := step_cases h
  have hop : s.nextOp = some op := hlevel
  rw [finishStep_out]
  cases op with
  | hold | sclfIgn | sclrIgn | sdafIgn | stopIgn | sdarIgn | nop | reset | start | rstart =>
    exact notifies_zero_of_nextOp (by simp [hop]) (by simp [State.nextIsSclStep, hop])
  | sclf => exact notifies_of_sclOp (rise := false) hop
  | sclr => exact notifies_of_sclOp (rise := true) hop
  | stop => exact .stop hop

end Sys2Proof.Machine
end

section
/-! CLAIMS. The callbacks of the application: what issues each strobe, and that no two are issued together
(spec/45_callbacks.md). -/

namespace Sys2Proof.Machine

/-- Settles O34, by the notification of the step: each has the cause of its own strobe and excludes the other three. -/
theorem strobesComeFromTheirCauses : Obligations.StrobesComeFromTheirCauses := by
  intro s t hstep
  have hnotifies := notifies_of_step hstep
  generalize t.out = o at hnotifies ⊢
  cases hnotifies with
  | stop hop => simp [Outputs.zero, State.nextIsSclStep, *]
  | request hscl h0 htx => simp [Outputs.zero, nextOp_ne_stop_of_sclStep hscl, *]
  | received hscl h15 hrx => simp [Outputs.zero, nextOp_ne_stop_of_sclStep hscl, *]
  | addressed hscl h15 haddr hmatch => simp [Outputs.zero, nextOp_ne_stop_of_sclStep hscl, *]
  | silent hstop hreq hrx haddr =>
    exact ⟨iff_of_false (by decide) hstop, iff_of_false (by decide) hreq, iff_of_false (by decide) hrx,
      iff_of_false (by decide) haddr, rfl, rfl, rfl⟩

/-- Settles O35: a step has one notification at most, and its cause is STOP or a SCL step. -/
theorem atMostOneStrobe : Obligations.AtMostOneStrobe := by
  intro s t hstep
  have hnotifies := notifies_of_step hstep
  generalize t.out = o at hnotifies ⊢
  cases hnotifies with
  | stop hop => exact ⟨le_rfl, by simp [hop]⟩
  | request hscl | received hscl | addressed hscl =>
    refine ⟨le_rfl, ?_⟩
    obtain hop | hop := hscl <;> simp [hop]
  | silent => exact ⟨by decide, fun _ => rfl⟩

end Sys2Proof.Machine
end

section
/-! SUPPORT. What a SCL step does to the pin, whatever its index and state (R120, R164). -/

namespace Sys2Proof.Machine

/-- A falling edge of the data window in Transmitting drives bit 7 of the byte being sent, which at index 0 is the
application's new one (R122, R125). -/
theorem sclStep_sdaLow_of_bit {s : State} (h15 : s.edgeCounter.val ≤ 15) (htx : s.protocolState = .transmitting) :
    (sclStep false s).sdaLow = !(if s.edgeCounter.val = 0 then s.inp.txData else s.pendingTxByte).getLsbD 7 := by
  by_cases h0 : s.edgeCounter.val = 0
  · rw [sclStep_zero_fall_transmitting h0 htx, if_pos h0]
    rfl
  · rw [sclStep_fall_transmitting htx (by omega) h15, if_neg h0]
    rfl

/-- A SCL step that sends no bit releases the pin at the start of a byte, shows `needAck` in the ACK slot, and otherwise
leaves the pin as it was (R121, R145). -/
theorem sclStep_sdaLow_of_no_bit {s : State} {rise : Bool}
    (hbit : ¬ (rise = false ∧ s.edgeCounter.val ≤ 15 ∧ s.protocolState = .transmitting)) :
    (sclStep rise s).sdaLow =
      if s.edgeCounter.val = 0 ∧ s.protocolState ≠ .transmitting then false
      else if s.edgeCounter.val = 16 then s.needAck
      else s.sdaLow := by
  obtain h15 | h16 | h17 : s.edgeCounter.val ≤ 15 ∨ s.edgeCounter.val = 16 ∨ s.edgeCounter.val = 17 := by omega
  · have hnot16 : s.edgeCounter.val ≠ 16 := by omega
    cases hst : s.protocolState with
    | addressPhase => simp [sclStep_sdaLow_of_listening rise (.inl hst) h15, hnot16]
    | receiving => simp [sclStep_sdaLow_of_listening rise (.inr hst) h15, hnot16]
    | transmitting =>
      obtain rfl : rise = true := by simpa [h15, hst] using hbit
      by_cases h0 : s.edgeCounter.val = 0
      · simp [sclStep_zero_rise_transmitting h0 hst, hnot16]
      · simp [sclStep_rise_transmitting hst (by omega) h15, hnot16]
    | idle =>
      obtain h0 | ⟨h1, h14⟩ | hlast : s.edgeCounter.val = 0 ∨
          (1 ≤ s.edgeCounter.val ∧ s.edgeCounter.val ≤ 14) ∨ s.edgeCounter.val = 15 := by omega
      · simp [sclStep_zero_listen rise h0 (by simp [hst]), h0]
      · have hnot0 : s.edgeCounter.val ≠ 0 := by omega
        simp [sclStep_middle rise h1 h14, hst, hnot0, hnot16]
      · simp [sclStep_last_other rise hlast (by simp [hst]), hst, hlast]
  · simp [sclStep_ack rise h16, h16]
  · simp [sclStep_wrap rise h17, h17]

end Sys2Proof.Machine
end

section
/-! CLAIMS. The pin driver: the instructions that write `sdaLow`, with the value each gives it
(spec/46_pin_driver.md). -/

namespace Sys2Proof.Machine

/-- Settles O32: the writers by their operations, a SCL step by whether it sends a bit, and every other instruction by
its frame. -/
theorem sdaLowWriters : Obligations.SdaLowWriters := by
  intro i s t hexec
  have hframe : .sdaLow ∉ mayWrite i → t.sdaLow = s.sdaLow := fun hf =>
    (frameByInstruction i s t .sdaLow hexec hf).symm
  cases i with
  | reset | b0rel | b0relRx => cases hexec; rfl
  | txbit => cases hexec; exact congrArg State.sdaLow (txbit_eq s)
  | ackslot => cases hexec; exact congrArg State.sdaLow (ackslot_eq s)
  | sclf =>
    cases hexec
    by_cases hbit : s.edgeCounter.val ≤ 15 ∧ s.protocolState = .transmitting
    · exact (sclStep_sdaLow_of_bit hbit.1 hbit.2).trans (if_pos hbit).symm
    · have hstart : s.edgeCounter.val = 0 → s.protocolState ≠ .transmitting := fun h0 htx => hbit ⟨by omega, htx⟩
      rw [if_neg hbit, sclStep_sdaLow_of_no_bit fun h => hbit h.2]
      simp only [and_iff_left_of_imp hstart]
  | sclr =>
    cases hexec
    exact sclStep_sdaLow_of_no_bit (by simp)
  | hold | sclfIgn | sclrIgn | start | rstart | sdafIgn | stop | stopIgn | sdarIgn | nop | b0txld | sampleAddr |
    sampleRx | finrx | finaddr | cntinc | cntincAck | cntwrap => exact hframe (by simp [mayWrite])

end Sys2Proof.Machine
end

section
/-! SUPPORT. Event entry from a script: its head is latched, and the entry consumes it (R178, log 3). -/

namespace Sys2Proof.Machine

theorem nextStimulus_of_script {s : State} {x : Stimulus} {rest : List Stimulus} (h : s.script = x :: rest) :
    s.nextStimulus = x := by
  simp [State.nextStimulus, h]

/-- Entry writes the latched inputs, the outputs and the two fields of the script, and no register (R178). -/
theorem latched_of_script {s : State} {x : Stimulus} {rest : List Stimulus} (h : s.script = x :: rest) :
    s.latched =
      { s with inp := s.eventOf x, out := Outputs.zero, script := rest, freeIndex := s.freeIndex + 1 } := by
  rw [State.latched, nextStimulus_of_script h, State.enter, h, List.tail_cons]

end Sys2Proof.Machine
end

section
/-! CLAIMS. Entry to a step and its totality: no error class changes what the engine does
(spec/60_exceptions.md). -/

namespace Sys2Proof.Machine

/-- Settles O3: every operation word has a row of R63, and the operation of every row answers a next state. -/
theorem stepAlwaysAnswersNext : Obligations.StepAlwaysAnswersNext := exists_step

/-- Settles O2: entry is the same for the three kinds of stimulus, which differ in the record alone: an event's is given,
a cycle's is made of the samples of the state (R82, R83), on the bus after the ports of `onBus` (R53). -/
theorem entryLatchesTheStimulus : Obligations.EntryLatchesTheStimulus := by
  intro s rest entered record
  have hcycle (c : CycleIn) : s.cycleEvent c = record c := rfl
  refine ⟨fun e hscript => latched_of_script hscript, fun c hscript => ?_, fun c hscript => ⟨?_, rfl⟩⟩
  · rw [latched_of_script hscript, State.eventOf, hcycle]
  · rw [latched_of_script hscript, State.eventOf, hcycle]

end Sys2Proof.Machine
end

section
/-! SUPPORT. What a SCL step reads (R120): which inputs at which index in which state, and that the shift register and
the pin flow into themselves alone. -/

namespace Sys2Proof.Machine

/-! ## The shift register and the pin (R122, R125, R164) -/

/-- The byte whose bit 7 is sent next: at index 0 the application's new one, later what is left of the one being
sent. -/
def State.bitSource (s : State) : Byte := if s.edgeCounter.val = 0 then s.inp.txData else s.pendingTxByte

theorem byteStartPhase_pendingTxByte (c : EdgeIndex) (st : ProtocolState) (s : State) :
    (byteStartPhase c st s).pendingTxByte =
      if c.val = 0 ∧ st = .transmitting then s.inp.txData else s.pendingTxByte := by
  by_cases h0 : c.val = 0 <;> by_cases htx : st = .transmitting <;>
    simp [byteStartPhase, h0, htx, b0rel_eq, b0txld_eq]

theorem dataBitPhase_pendingTxByte (c : EdgeIndex) (st : ProtocolState) (rise : Bool) (s : State) :
    (dataBitPhase c st rise s).pendingTxByte =
      if c.val ≤ 15 ∧ rise = false ∧ st = .transmitting then shiftLeft1 s.pendingTxByte else s.pendingTxByte := by
  by_cases h15 : c.val ≤ 15
  · rw [dataBitPhase_le h15]
    split_ifs <;> simp_all
  · simp [dataBitPhase, h15]

/-- The shift register after a SCL step: in the data window of a transmitted frame loaded at index 0, and shifted on a
falling edge. -/
theorem sclStep_pendingTxByte (rise : Bool) (s : State) :
    (sclStep rise s).pendingTxByte =
      if s.edgeCounter.val ≤ 15 ∧ s.protocolState = .transmitting then
        if rise then s.bitSource else shiftLeft1 s.bitSource
      else s.pendingTxByte := by
  have hlater : (sclStep rise s).pendingTxByte = (dataBitPhase s.edgeCounter s.protocolState rise
      (byteStartPhase s.edgeCounter s.protocolState s)).pendingTxByte :=
    (agree_trans (agree_trans (finalisePhase_agree _ _ _ (f := .pendingTxByte) (by decide))
      (ackPhase_agree _ _ (by decide))) (counterPhase_agree _ _ (by decide))).symm
  rw [hlater, dataBitPhase_pendingTxByte, byteStartPhase_pendingTxByte]
  by_cases hlive : s.edgeCounter.val ≤ 15 ∧ s.protocolState = .transmitting
  · cases rise <;> simp [State.bitSource, hlive]
  · have hstart : ¬ (s.edgeCounter.val = 0 ∧ s.protocolState = .transmitting) := fun h => hlive ⟨by omega, h.2⟩
    rw [if_neg fun h => hlive ⟨h.1, h.2.2⟩, if_neg hstart, if_neg hlive]

/-- The pin after a SCL step (R164). -/
theorem sclStep_sdaLow (rise : Bool) (s : State) :
    (sclStep rise s).sdaLow =
      if rise = false ∧ s.edgeCounter.val ≤ 15 ∧ s.protocolState = .transmitting then !transmitBit s.bitSource
      else if s.edgeCounter.val = 0 ∧ s.protocolState ≠ .transmitting then false
      else if s.edgeCounter.val = 16 then s.needAck
      else s.sdaLow := by
  by_cases hbit : rise = false ∧ s.edgeCounter.val ≤ 15 ∧ s.protocolState = .transmitting
  · rw [if_pos hbit]
    obtain ⟨rfl, h15, htx⟩ := hbit
    exact sclStep_sdaLow_of_bit h15 htx
  · rw [if_neg hbit, sclStep_sdaLow_of_no_bit hbit]

section
variable {s t : State} (hc : s.edgeCounter = t.edgeCounter) (hst : s.protocolState = t.protocolState)
  (hbit : s.edgeCounter.val ≤ 15 → s.protocolState = .transmitting → s.bitSource = t.bitSource)
include hc hst hbit

theorem sclStep_pendingTxByte_congr (rise : Bool)
    (hkeep : ¬ (s.edgeCounter.val ≤ 15 ∧ s.protocolState = .transmitting) → s.pendingTxByte = t.pendingTxByte) :
    (sclStep rise s).pendingTxByte = (sclStep rise t).pendingTxByte := by
  rw [sclStep_pendingTxByte, sclStep_pendingTxByte, ← hc, ← hst]
  split_ifs with hlive
  · exact hbit hlive.1 hlive.2
  · rw [hbit hlive.1 hlive.2]
  · exact hkeep hlive

theorem sclStep_sdaLow_congr (rise : Bool) (hack : s.needAck = t.needAck)
    (hkeep : ¬ (s.edgeCounter.val = 0 ∧ s.protocolState ≠ .transmitting) → s.sdaLow = t.sdaLow) :
    (sclStep rise s).sdaLow = (sclStep rise t).sdaLow := by
  rw [sclStep_sdaLow, sclStep_sdaLow, ← hc, ← hst, ← hack]
  split_ifs with hlive hstart
  · rw [hbit hlive.2.1 hlive.2.2]
  · rfl
  · rfl
  · exact hkeep hstart

end

/-! ## What else a SCL step reads (R124, R141, R142) -/

/-- A state with other inputs, another shift register and another pin. -/
def State.varied (s : State) (e : EventIn) (pending : Byte) (low : Bool) : State :=
  { s with inp := e, pendingTxByte := pending, sdaLow := low }

/-- `t` is `s` but for the inputs, which are `e`, the shift register and the pin. -/
def VariedBy (e : EventIn) (s t : State) : Prop := ∃ pending low, t = s.varied e pending low

/-- The inputs `e` and `f` agree where a SCL step at index `c` in state `st` reads them: SAMPLE the SDA level, B0TXLD
`tx_data`, FINRX `rx_ack`, FINADDR `bus_addr`. -/
structure SameReads (c : EdgeIndex) (st : ProtocolState) (e f : EventIn) : Prop where
  sdaLevel : f.sdaLevel = e.sdaLevel
  txData : c.val = 0 → st = .transmitting → f.txData = e.txData
  rxAck : c.val = 15 → st = .receiving → f.rxAck = e.rxAck
  busAddr : c.val = 15 → st = .addressPhase → f.busAddr = e.busAddr

section
variable {s t : State} {e : EventIn} {c : EdgeIndex} {st : ProtocolState} (h : VariedBy e s t)
include h

theorem variedBy_byteStartPhase : VariedBy e (byteStartPhase c st s) (byteStartPhase c st t) := by
  obtain ⟨p, l, rfl⟩ := h
  unfold byteStartPhase
  split_ifs <;> exact ⟨_, _, rfl⟩

theorem variedBy_ackPhase : VariedBy e (ackPhase c s) (ackPhase c t) := by
  obtain ⟨p, l, rfl⟩ := h
  unfold ackPhase
  split_ifs
  · rw [ackslot_eq, ackslot_eq]; exact ⟨_, _, rfl⟩
  · exact ⟨_, _, rfl⟩

theorem variedBy_counterPhase : VariedBy e (counterPhase c s) (counterPhase c t) := by
  obtain ⟨p, l, rfl⟩ := h
  unfold counterPhase
  split_ifs <;> exact ⟨_, _, rfl⟩

variable (hr : SameReads c st s.inp e)
include hr

theorem variedBy_dataBitPhase (rise : Bool) :
    VariedBy e (dataBitPhase c st rise s) (dataBitPhase c st rise t) := by
  obtain ⟨p, l, rfl⟩ := h
  unfold dataBitPhase
  split_ifs
  · rw [sample_eq, sample_eq, ← hr.sdaLevel]; exact ⟨_, _, rfl⟩
  · rw [txbit_eq, txbit_eq]; exact ⟨_, _, rfl⟩
  · exact ⟨_, _, rfl⟩
  · exact ⟨_, _, rfl⟩

theorem variedBy_finalisePhase : VariedBy e (finalisePhase c st s) (finalisePhase c st t) := by
  obtain ⟨p, l, rfl⟩ := h
  unfold finalisePhase
  split_ifs with h15 hrx haddr
  · rw [finrx_eq, finrx_eq, ← hr.rxAck h15 hrx]; exact ⟨_, _, rfl⟩
  · have hbus := hr.busAddr h15 haddr
    by_cases hm : receivedAddress s.activeByte = s.inp.busAddr
    · rw [finaddr_match hm, finaddr_match (s := s.varied e p l) (hm.trans hbus.symm)]; exact ⟨_, _, rfl⟩
    · rw [finaddr_mismatch hm, finaddr_mismatch (s := s.varied e p l) fun h => hm (h.trans hbus)]
      exact ⟨_, _, rfl⟩
  · exact ⟨_, _, rfl⟩
  · exact ⟨_, _, rfl⟩

end

/-- What a SCL step leaves, the shift register and the pin apart, depends on neither, and on the inputs it reads. -/
theorem variedBy_sclStep {s : State} {e : EventIn} (hr : SameReads s.edgeCounter s.protocolState s.inp e)
    (pending : Byte) (low : Bool) (rise : Bool) :
    VariedBy e (sclStep rise s) (sclStep rise (s.varied e pending low)) := by
  have hstart := byteStartPhase_agree s.edgeCounter s.protocolState s (f := .surroundings) (by decide)
  have hbit := dataBitPhase_agree s.edgeCounter s.protocolState (byteStartPhase s.edgeCounter s.protocolState s) rise
    (f := .surroundings) (by decide)
  exact variedBy_counterPhase (variedBy_ackPhase (variedBy_finalisePhase
    (variedBy_dataBitPhase (variedBy_byteStartPhase ⟨pending, low, rfl⟩) (hstart.1 ▸ hr) rise)
    ((agree_trans hstart hbit).1 ▸ hr)))

/-- A SCL step reads no inputs but those of `SameReads`. -/
theorem sclStep_withInputs_of_sameReads {s : State} {e : EventIn}
    (hr : SameReads s.edgeCounter s.protocolState s.inp e) (rise : Bool) :
    sclStep rise (s.withInputs e) = (sclStep rise s).withInputs e := by
  have hbit : s.edgeCounter.val ≤ 15 → s.protocolState = .transmitting →
      (s.withInputs e).bitSource = s.bitSource := by
    intro _ htx
    by_cases h0 : s.edgeCounter.val = 0
    · simpa [State.bitSource, State.withInputs, h0] using hr.txData h0 htx
    · simp [State.bitSource, State.withInputs, h0]
  have hpending := sclStep_pendingTxByte_congr (s := s.withInputs e) (t := s) rfl rfl hbit rise fun _ => rfl
  have hpin := sclStep_sdaLow_congr (s := s.withInputs e) (t := s) rfl rfl hbit rise rfl fun _ => rfl
  obtain ⟨p, l, hvaried⟩ := variedBy_sclStep hr s.pendingTxByte s.sdaLow rise
  have hstep : sclStep rise (s.withInputs e) = (sclStep rise s).varied e p l := hvaried
  rw [hstep] at hpending hpin ⊢
  obtain rfl : p = (sclStep rise s).pendingTxByte := hpending
  obtain rfl : l = (sclStep rise s).sdaLow := hpin
  rfl

end Sys2Proof.Machine
end

section
/-! SUPPORT. Two events on one state that differ in the application's answers or in `bus_addr` (R201, R205). -/

namespace Sys2Proof.Machine

theorem nextOp_given (s : State) (e : EventIn) : (s.given e).nextOp = some (s.opOn e) := by
  rw [nextOp_eq, latched_of_event rfl]
  rfl

/-- An event that selects the same operation and, if that is a SCL step, cannot be told apart by what the step reads
leaves the same state, the latched record apart. -/
theorem step_given_of_sameReads {s t : State} {e f : EventIn} (hstep : step (s.given e) = .next t)
    (hop : s.opOn f = s.opOn e)
    (hr : (s.given e).nextIsSclStep → SameReads s.edgeCounter s.protocolState e f) :
    ∃ u, step (s.given f) = .next u ∧ u.withoutInputs = t.withoutInputs := by
  obtain rfl := Host.Outcome.next.inj ((step_of_event rfl).symm.trans hstep)
  have hafter : (s.given f).after f = ((s.given e).after e).withInputs f := by
    have heffect : opEffect (s.opOn e) (((s.given e).enter e).withInputs f) =
        (opEffect (s.opOn e) ((s.given e).enter e)).withInputs f := by
      rw [State.nextIsSclStep, nextOp_given, Option.some.injEq, Option.some.injEq] at hr
      cases hsel : s.opOn e with
      | sclf | sclr =>
        exact sclStep_withInputs_of_sameReads (s := (s.given e).enter e) (hr (by simp [hsel])) _
      | reset | hold | sclfIgn | sclrIgn | start | rstart | sdafIgn | stop | stopIgn | sdarIgn | nop => rfl
    calc (s.given f).after f = opEffect (s.opOn f) ((s.given f).enter f) := rfl
      _ = opEffect (s.opOn e) (((s.given e).enter e).withInputs f) := by rw [hop]; rfl
      _ = ((s.given e).after e).withInputs f := heffect
  exact ⟨_, step_of_event rfl, by rw [hafter]; rfl⟩

/-- The compare of an address frame leaves for Idle unless the completed byte's address is `bus_addr` (R142, R143). -/
theorem compare_of_nextIsSclStep {s t : State} (hstep : step s = .next t) (hscl : s.nextIsSclStep)
    (h15 : s.edgeCounter.val = 15) (haddr : s.protocolState = .addressPhase) :
    t.protocolState ≠ .idle ↔ receivedAddress s.finalByte = s.latched.inp.busAddr := by
  obtain ⟨rise, hop⟩ := (nextIsSclStep_iff s).mp hscl
  rw [step_op hop] at hstep
  obtain rfl := Host.Outcome.next.inj hstep
  rw [finishStep_protocolState, opEffect_sclOp]
  have hne : (sclStep rise s.latched).protocolState ≠ s.protocolState := by
    rw [haddr]
    exact sclStep_ne_addressPhase (s := s.latched) rise h15 haddr
  obtain ⟨-, -, -, ⟨hmatch, hstate⟩ | ⟨hmismatch, hstate⟩⟩ := transition_of_sclOp hop hne
  · rw [hstate]
    refine iff_of_true ?_ hmatch
    split <;> decide
  · exact iff_of_false (fun h => h hstate) hmismatch

end Sys2Proof.Machine
end

section
/-! SUPPORT. The relation of two histories (R191): what entry, each operation and the clock edge leave of it. -/

namespace Sys2Proof.Machine

/-- With no transaction open every register that may differ is dead. -/
theorem sameFuture_of_closed {s t : State} (hstate : s.protocolState = t.protocolState) (hs : s.busStarted = false)
    (ht : t.busStarted = false) (hrestarted : s.busRestarted = t.busRestarted) (hsync : s.agree t .synchronisers)
    (hscript : s.script = t.script) (hfree : s.freeIndex = t.freeIndex) : s.SameFuture t where
  protocolState := hstate
  busStarted := hs.trans ht.symm
  busRestarted := hrestarted
  sync := hsync
  script := hscript
  freeIndex := hfree
  frame := by simp [hs]
  shifting := by simp [hs]
  pin := by simp [hs]

/-! ## Entry and the clock edge -/

section
variable {s t : State} (h : s.SameFuture t)
include h

theorem nextStimulus_of_sameFuture : s.nextStimulus = t.nextStimulus := by
  rw [State.nextStimulus, State.nextStimulus, h.script, h.freeIndex]

/-- The pins of the next step are given, so both histories present the same event (R82, R83). -/
theorem eventOf_of_sameFuture (hopen : s.openPins) : s.eventOf s.nextStimulus = t.eventOf t.nextStimulus := by
  obtain ⟨-, hsclSync, hsclPrev, -, hsdaSync, hsdaPrev⟩ := h.sync
  rw [State.openPins] at hopen
  rw [← nextStimulus_of_sameFuture h]
  cases hx : s.nextStimulus with
  | event e => rfl
  | cycle c => simp [State.eventOf, State.cycleEvent, State.detectFlags, hsclSync, hsclPrev, hsdaSync, hsdaPrev]
  | busCycle c => simp [hx] at hopen

theorem sameFuture_enter (e : EventIn) : (s.enter e).SameFuture (t.enter e) :=
  { h with script := congrArg List.tail h.script, freeIndex := congrArg (· + 1) h.freeIndex }

/-- The clock edge takes the same samples after both. -/
theorem sameFuture_finishStep (hopen : s.openPins) {u v : State} (huv : u.SameFuture v) :
    (finishStep s u s.nextStimulus).SameFuture (finishStep t v t.nextStimulus) := by
  obtain ⟨hsclMeta, hsclSync, -, hsdaMeta, hsdaSync, -⟩ := huv.sync
  rw [State.openPins] at hopen
  rw [← nextStimulus_of_sameFuture h]
  cases hx : s.nextStimulus with
  | event e => exact huv
  | cycle c =>
    simp only [finishStep, clockEdge, State.sampleScl, State.sampleSda, h.freeIndex]
    split_ifs
    · exact huv
    · exact { huv with sync := ⟨rfl, hsclMeta, hsclSync, rfl, hsdaMeta, hsdaSync⟩ }
  | busCycle c => simp [hx] at hopen

/-! ## The operations outside a SCL step -/

theorem sameFuture_startHandling : s.startHandling.SameFuture t.startHandling where
  protocolState := rfl
  busStarted := rfl
  busRestarted := h.busStarted
  sync := h.sync
  script := h.script
  freeIndex := h.freeIndex
  frame _ := ⟨rfl, rfl, rfl⟩
  shifting _ htx := nomatch htx
  pin _ hpast := absurd ⟨rfl, rfl⟩ hpast

theorem sameFuture_dropBus : s.dropBus.SameFuture t.dropBus :=
  sameFuture_of_closed rfl rfl rfl rfl h.sync h.script h.freeIndex

theorem sameFuture_appStop : s.appStop.SameFuture t.appStop := { h with }

theorem sameFuture_resetRegisters : s.resetRegisters.SameFuture t.resetRegisters :=
  sameFuture_of_closed rfl rfl rfl rfl ⟨rfl, rfl, rfl, rfl, rfl, rfl⟩ h.script h.freeIndex

end

/-! ## The SCL step -/

section
variable {s t : State} (h : s.SameFuture t) (hopen : s.busStarted = true)
include h hopen

/-- In an open transaction two histories differ in the shift register and the pin alone. -/
theorem eq_varied_of_sameFuture (hinp : s.inp = t.inp) (hout : s.out = t.out) :
    t = s.varied s.inp t.pendingTxByte t.sdaLow := by
  obtain ⟨hcounter, hack, hbyte⟩ := h.frame hopen
  obtain ⟨h1, h2, h3, h4, h5, h6⟩ := h.sync
  obtain ⟨hstate, hstarted, hrestarted, -, hscript, hfree, -, -, -⟩ := h
  cases s
  cases t
  simp_all [State.varied]

/-- The byte being sent is the same in both: it is new at index 0, and the shift register is live after that. -/
theorem bitSource_of_sameFuture (hinp : s.inp = t.inp) (h15 : s.edgeCounter.val ≤ 15)
    (htx : s.protocolState = .transmitting) : s.bitSource = t.bitSource := by
  have hcounter := (h.frame hopen).1
  rw [State.bitSource, State.bitSource, ← hcounter, hinp]
  split_ifs with h0
  · rfl
  · exact h.shifting hopen htx (by omega) h15

/-- A SCL step leaves the same pin: where it does not write it, the pin was the same before. -/
theorem sclStep_sdaLow_of_sameFuture (rise : Bool) (hinp : s.inp = t.inp) :
    (sclStep rise s).sdaLow = (sclStep rise t).sdaLow := by
  obtain ⟨hcounter, hack, -⟩ := h.frame hopen
  refine sclStep_sdaLow_congr hcounter h.protocolState (bitSource_of_sameFuture h hopen hinp) rise hack fun hstart => ?_
  exact h.pin hopen fun ⟨haddr, h0⟩ => hstart ⟨h0, by simp [haddr]⟩

/-- While a byte is being sent a SCL step leaves the same shift register. -/
theorem sclStep_pendingTxByte_of_sameFuture (rise : Bool) (hinp : s.inp = t.inp)
    (htx : (sclStep rise s).protocolState = .transmitting) (h1 : 1 ≤ (sclStep rise s).edgeCounter.val)
    (h15 : (sclStep rise s).edgeCounter.val ≤ 15) :
    (sclStep rise s).pendingTxByte = (sclStep rise t).pendingTxByte := by
  have h14 : s.edgeCounter.val ≤ 14 := by
    rw [sclStep_edgeCounter] at h1 h15
    split at h1 <;> simp_all
    omega
  have hstate : s.protocolState = .transmitting := (sclStep_control rise fun hc => by omega).1.symm.trans htx
  exact sclStep_pendingTxByte_congr (h.frame hopen).1 h.protocolState (bitSource_of_sameFuture h hopen hinp) rise
    fun hdead => absurd ⟨by omega, hstate⟩ hdead

/-- What a SCL step leaves is related, and it notifies the same. -/
theorem sameFuture_sclStep (rise : Bool) (hinp : s.inp = t.inp) (hout : s.out = t.out) :
    (sclStep rise s).SameFuture (sclStep rise t) ∧ (sclStep rise s).out = (sclStep rise t).out := by
  have hpending := sclStep_pendingTxByte_of_sameFuture h hopen rise hinp
  have hpin := sclStep_sdaLow_of_sameFuture h hopen rise hinp
  have hvaried : VariedBy s.inp (sclStep rise s) (sclStep rise t) := by
    rw [eq_varied_of_sameFuture h hopen hinp hout]
    exact variedBy_sclStep ⟨rfl, fun _ _ => rfl, fun _ _ => rfl, fun _ _ => rfl⟩ _ _ rise
  obtain ⟨p, l, hvaried⟩ := hvaried
  rw [hvaried] at hpending hpin ⊢
  exact
    ⟨{ protocolState := rfl
       busStarted := rfl
       busRestarted := rfl
       sync := ⟨rfl, rfl, rfl, rfl, rfl, rfl⟩
       script := rfl
       freeIndex := rfl
       frame := fun _ => ⟨rfl, rfl, rfl⟩
       shifting := fun _ => hpending
       pin := fun _ _ => hpin }, rfl⟩

end

/-- Every operation keeps the relation and notifies the same; a SCL step is taken in an open transaction (R92). -/
theorem sameFuture_opEffect {s t : State} {op : Level1Op} (h : s.SameFuture t) (hinp : s.inp = t.inp)
    (hout : s.out = t.out) (hopen : op = .sclf ∨ op = .sclr → s.busStarted = true) :
    (opEffect op s).SameFuture (opEffect op t) ∧ (opEffect op s).out = (opEffect op t).out := by
  cases op with
  | hold | sclfIgn | sclrIgn | sdafIgn | stopIgn | sdarIgn | nop => exact ⟨h, hout⟩
  | reset => exact ⟨sameFuture_resetRegisters h, rfl⟩
  | start | rstart => exact ⟨sameFuture_startHandling h, hout⟩
  | stop => exact ⟨sameFuture_appStop (sameFuture_dropBus h), congrArg (fun o => { o with stopEvt := true }) hout⟩
  | sclf | sclr => exact sameFuture_sclStep h (hopen (by simp)) _ hinp hout

end Sys2Proof.Machine
end

section
/-! SUPPORT. The eight clocks of a transmitted frame from a list of levels, and the cycles of the bring-up sequence
(R193, R198). -/

namespace Sys2Proof.Machine

/-! ## The clocks of `sclClocks` -/

/-- The clock with these two levels, whose events present the same answers. -/
def clockOf (a : Answers) (p : Bool × Bool) : SclClock :=
  { fallSda := p.1, fallAnswers := a, riseSda := p.2, riseAnswers := a }

theorem stimuli_sclClocks (a : Answers) (levels : List (Bool × Bool)) :
    stimuli a (sclClocks levels) = (clockEvents (levels.map (clockOf a))).map .event := by
  induction levels with
  | nil => rfl
  | cons p ps ih =>
    calc stimuli a (sclClocks (p :: ps))
        = .event (fallEvent (clockOf a p)) :: .event (riseEvent (clockOf a p)) :: stimuli a (sclClocks ps) := rfl
      _ = (clockEvents ((p :: ps).map (clockOf a))).map .event := by rw [ih]; rfl

/-- Where a transmitted frame stands after its eight clocks. -/
theorem sent_all_clocks {s : State} {first : SclClock} {others : List SclClock} (hopen : s.busStarted = true)
    (ht : s.protocolState = .transmitting) (h0 : s.edgeCounter.val = 0) (hlen : others.length = 7) :
    Sent s first.fallAnswers.txData (laterEvents first others) (s.afterEvents (clockEvents (first :: others))) :=
  sent_afterEvents (e := fallEvent first) hopen ht h0 (by simp [edgeOf])
    (fun _ he => keepsFrame_clockEvents (cs := first :: others) (List.mem_cons_of_mem _ he))
    (length_sclEdges_laterEvents hlen).le

/-! ## Cycles with `enable = 0` (R95, R192) -/

/-- A cycle with `enable = 0` shifts the synchronisers and writes no other register. -/
theorem step_of_hold_cycle {s : State} {c : CycleIn} (hc : s.nextCycle? = some c) (hrst : c.rst = false)
    (hen : c.enable = false) : step s = .next (s.latched.sync (s.sampleScl c) (s.sampleSda c)) := by
  have hop : s.nextOp = some .hold := by
    rw [nextOp_eq, latched_inp_of_cycle hc]
    simp [State.cycleEvent, dispatchChoice, hrst, hen]
  rw [step_op hop, finishStep_of_cycle hc, clockEdge, hrst]
  rfl

/-- The sample of a pin held at a level is that level (R81). -/
@[simp] theorem samplePin_level (draw level : Bool) : samplePin draw (if level then .high else .low) = level := by
  cases level <;> rfl

/-- A HOLD cycle at the head of the script, with both pins held at a level. -/
theorem step_of_steady_hold {s : State} {c : CycleIn} {rest : List Stimulus} {p q : Bool}
    (hscript : s.script = .cycle c :: rest)
    (hc : c.rst = false ∧ c.enable = false ∧ c.sclPin = (if p then .high else .low) ∧
      c.sdaPin = (if q then .high else .low)) : step s = .next (s.latched.sync p q) := by
  obtain ⟨hrst, hen, hscl, hsda⟩ := hc
  rw [step_of_hold_cycle (nextCycle?_of_script hscript) hrst hen, State.sampleScl, State.sampleSda, hscl, hsda,
    samplePin_level, samplePin_level]

end Sys2Proof.Machine
end

section
/-! SUPPORT. The engine on the wired-AND bus with slow SCL phases: its own change of SDA passes the synchronisers while
SCL is low in all of them (R53, R195, R196). -/

namespace Sys2Proof.Machine

/-! ## The engine moves SDA on falling SCL edges alone -/

/-- From an aligned cycle a rising edge finds an odd index, where nothing writes the pin (R27, R164). -/
theorem sclStep_sdaLow_of_rise {s : State} (hodd : s.edgeCounter.val % 2 = 1) :
    (sclStep true s).sdaLow = s.sdaLow := by
  rw [sclStep_sdaLow, if_neg (by simp), if_neg (by omega), if_neg (by omega)]

/-- In a cycle with `rst = 0` the pin changes only on a falling SCL edge (R164). -/
theorem samples_of_sdaLow_change {s t : State} {c : CycleIn} (hc : s.nextCycle? = some c) (hrst : c.rst = false)
    (hal : s.Aligned) (hstep : step s = .next t) (hne : t.sdaLow ≠ s.sdaLow) :
    s.sclPrev = true ∧ s.sclSync = false := by
  obtain ⟨op, hop, rfl⟩ := step_cases hstep
  rw [finishStep_sdaLow] at hne
  cases op with
  | hold | sclfIgn | sclrIgn | sdafIgn | stopIgn | sdarIgn | nop | start | rstart | stop => exact absurd rfl hne
  | reset =>
    have hset := selectedWhen_of_nextOp hop
    simp [selectedWhen, latched_inp_of_cycle hc, State.cycleEvent, hrst] at hset
  | sclf => exact samples_of_sclOp (rise := false) hc hop
  | sclr =>
    have hodd := parity_of_sclOp (rise := true) hc hal hop
    exact absurd (sclStep_sdaLow_of_rise (s := s.latched) hodd) hne

/-! ## The samples of a slow SCL -/

/-- The last `k` samples of SCL are equal, and those before them that the synchroniser still holds differ from them. -/
structure State.SclRun (s : State) (k : Nat) : Prop where
  pos : 1 ≤ k
  sclSync : s.sclSync = if 2 ≤ k then s.sclMeta else !s.sclMeta
  sclPrev : s.sclPrev = if 3 ≤ k then s.sclMeta else !s.sclMeta

section
variable {s t : State} {c : CycleIn} {k : Nat} (h : s.SclRun k) (hshift : Shifted s c t)
include h

/-- A falling edge in the synchroniser is two samples old (R87). -/
theorem sclRun_of_fall (hprev : s.sclPrev = true) (hsync : s.sclSync = false) : s.sclMeta = false ∧ k = 2 := by
  obtain ⟨hpos, hsclSync, hsclPrev⟩ := h
  have h2 : 2 ≤ k := by
    by_contra hlt
    rw [if_neg hlt] at hsclSync
    rw [if_neg (by omega), ← hsclSync, hprev, hsync] at hsclPrev
    cases hsclPrev
  have h3 : ¬ 3 ≤ k := fun h3 => by
    rw [if_pos h2] at hsclSync
    rw [if_pos h3, ← hsclSync, hprev, hsync] at hsclPrev
    cases hsclPrev
  rw [hsync, if_pos h2] at hsclSync
  exact ⟨hsclSync.symm, by omega⟩

include hshift

theorem sclRun_of_same (hx : s.sampleScl c = s.sclMeta) : t.SclRun (k + 1) := by
  obtain ⟨hpos, hsync, hprev⟩ := h
  refine ⟨by omega, ?_, ?_⟩
  · rw [hshift.sclSync, hshift.sclMeta, hx, if_pos (by omega)]
  · rw [hshift.sclPrev, hshift.sclMeta, hx, hsync]
    simp

theorem sclRun_of_change (hx : s.sampleScl c ≠ s.sclMeta) (hlong : 2 ≤ k) : t.SclRun 1 := by
  obtain ⟨hpos, hsync, hprev⟩ := h
  have hmeta : s.sclMeta = !s.sampleScl c := Bool.eq_not.mpr hx.symm
  refine ⟨le_rfl, ?_, ?_⟩
  · rw [hshift.sclSync, hshift.sclMeta]
    exact hmeta
  · rw [hshift.sclPrev, hshift.sclMeta, hsync, if_pos hlong]
    exact hmeta

end

/-- The samples after the next one: the run of equal samples goes on, or a new one starts after `n` at least. -/
theorem phasesAtLeast_cons {n k : Nat} {l x : Bool} {xs : List Bool} (h : phasesAtLeast n k l (x :: xs) = true) :
    (x = l ∧ phasesAtLeast n (k + 1) l xs = true) ∨ (x ≠ l ∧ n ≤ k ∧ phasesAtLeast n 1 x xs = true) := by
  by_cases hx : x = l
  · exact .inl ⟨hx, by simpa [phasesAtLeast, hx] using h⟩
  · exact .inr ⟨hx, by simpa [phasesAtLeast, hx] using h⟩

/-! ## A change of SDA on its way through the synchroniser -/

/-- Where two successive samples of SDA differ, the line itself being the newest, SCL was low at the older one. -/
structure State.EchoSafe (s : State) (master : Bool) : Prop where
  newest : s.sdaMeta ≠ s.sdaLine master → s.sclMeta = false
  middle : s.sdaSync ≠ s.sdaMeta → s.sclSync = false
  oldest : s.sdaPrev ≠ s.sdaSync → s.sclPrev = false

/-- In such a cycle no SDA edge is seen at SCL high (R83, R93). -/
theorem not_startStop_of_echoSafe {s : State} {master : Bool} {c : CycleIn} (h : s.EchoSafe master)
    (hc : s.nextCycle? = some c) : s.nextOp ∉ [some .start, some .rstart, some .stop, some .stopIgn] := by
  intro hop
  have hkind : s.nextOp ∈ [some Level1Op.start, some .rstart] ∨ s.nextOp ∈ [some Level1Op.stop, some .stopIgn] := by
    simpa [or_assoc] using hop
  have hflags : s.latched.inp.flags = s.detectFlags := by rw [latched_inp_of_cycle hc]; rfl
  have hsafe : s.sclPrev = true → s.sdaPrev = s.sdaSync := fun hhigh => by
    by_contra hne
    simp [h.oldest hne] at hhigh
  obtain hop | hop := hkind
  · obtain ⟨hquiet, hscl, hfall⟩ := event_of_start hop
    have hsda := hsafe (scl_high_of_sclQuiet hc hquiet hscl).1
    simp [hflags, hsda] at hfall
  · obtain ⟨hquiet, hscl, hrise⟩ := event_of_stop hop
    have hsda := hsafe (scl_high_of_sclQuiet hc hquiet hscl).1
    simp [hflags, hsda] at hrise

/-- The clock edge moves the changes on with the SCL samples they were made at; a new one must be made at SCL low. -/
theorem echoSafe_of_shifted {s t : State} {master : Bool} {c : CycleIn} (h : s.EchoSafe master)
    (hshift : Shifted s c t) (hsda : s.sampleSda c = s.sdaLine master)
    (hlow : t.sdaLow ≠ s.sdaLow → s.sampleScl c = false) :
    t.EchoSafe master where
  newest hne := by
    rw [hshift.sclMeta]
    refine hlow fun hkept => hne ?_
    rw [hshift.sdaMeta, hsda, State.sdaLine, State.sdaLine, hkept]
  middle hne := by
    rw [hshift.sdaSync, hshift.sdaMeta, hsda] at hne
    rw [hshift.sclSync]
    exact h.newest hne
  oldest hne := by
    rw [hshift.sdaPrev, hshift.sdaSync] at hne
    rw [hshift.sclPrev]
    exact h.middle hne

/-! ## The cycles of a run -/

/-- The ports of a cycle: SCL at a level, the master's SDA output at its own. -/
def busPorts (a : Answers) (master x : Bool) : CycleIn :=
  { rst := false, enable := true, sclPin := if x then .high else .low, sdaPin := if master then .high else .low,
    busAddr := a.busAddr, rxAck := a.rxAck, txData := a.txData }

/-- A cycle on the wired-AND bus samples the line, low when either side pulls it low (R53). -/
theorem sampleSda_onBus (s : State) (a : Answers) (master x : Bool) :
    s.sampleSda (s.onBus (busPorts a master x)) = s.sdaLine master := by
  cases hlow : s.sdaLow <;> cases master <;>
    simp [State.sampleSda, State.onBus, busPorts, busSda, State.sdaLine, samplePin, hlow]

theorem nextCycle?_of_busCycle {s : State} {c : CycleIn} {rest : List Stimulus} (h : s.script = .busCycle c :: rest) :
    s.nextCycle? = some (s.onBus c) := by
  rw [State.nextCycle?, nextStimulus_of_script h]

/-- Where a run stands before the SCL samples `levels`: aligned, no change of SDA on its way was made at SCL high, and
the SCL phases, of which the last `k` samples are the newest, are at least `n` long. -/
structure State.EchoRun (s : State) (master : Bool) (n k : Nat) (levels : List Bool) : Prop where
  aligned : s.Aligned
  echoSafe : s.EchoSafe master
  sclRun : s.SclRun k
  slow : phasesAtLeast n k s.sclMeta levels = true

/-- The engine changes SDA two samples into a low phase, so the sample of that cycle is low too. -/
theorem echoRun_step {s t : State} {a : Answers} {master x : Bool} {n k : Nat} {xs : List Bool} {rest : List Stimulus}
    (hn : 3 ≤ n) (h : s.EchoRun master n k (x :: xs)) (hscript : s.script = .busCycle (busPorts a master x) :: rest)
    (hstep : step s = .next t) : ∃ k', t.EchoRun master n k' xs := by
  obtain ⟨hal, hsafe, hrun, hslow⟩ := h
  have hc := nextCycle?_of_busCycle hscript
  have hshift := shifted_of_step hc rfl hstep
  have hscl : s.sampleScl (s.onBus (busPorts a master x)) = x := samplePin_level _ x
  have hphase := phasesAtLeast_cons hslow
  have hlow : t.sdaLow ≠ s.sdaLow → x = false := by
    intro hne
    obtain ⟨hprev, hsync⟩ := samples_of_sdaLow_change hc rfl hal hstep hne
    obtain ⟨hmeta, hk⟩ := sclRun_of_fall hrun hprev hsync
    obtain ⟨hx, -⟩ | ⟨-, hlong, -⟩ := hphase
    · exact hx.trans hmeta
    · omega
  have halnext := alignmentKept s t _ hc (.inl rfl) hal hstep
  have hsafenext := echoSafe_of_shifted hsafe hshift (sampleSda_onBus s a master x) (by rwa [hscl])
  have hmeta : t.sclMeta = x := hshift.sclMeta.trans hscl
  obtain ⟨hx, hgoes⟩ | ⟨hx, hlong, hgoes⟩ := hphase
  · exact ⟨k + 1, halnext, hsafenext, sclRun_of_same hrun hshift (hscl.trans hx), by rwa [hmeta, hx]⟩
  · exact ⟨1, halnext, hsafenext, sclRun_of_change hrun hshift (by rwa [hscl]) (by omega), by rwa [hmeta]⟩

/-- Every cycle of the run starts in such a state. -/
theorem echoRun_run {s t : State} {a : Answers} {master : Bool} {n k j : Nat} {levels : List Bool}
    {rest : List Stimulus} (hn : 3 ≤ n) (h : s.EchoRun master n k levels)
    (hscript : s.script = levels.map (fun x => .busCycle (busPorts a master x)) ++ rest) (hj : j < levels.length)
    (hrun : core.run j s = .next t) : t.EchoSafe master ∧ ∃ c, t.nextCycle? = some c := by
  induction j generalizing s k levels with
  | zero =>
    obtain ⟨x, xs, rfl⟩ := List.exists_cons_of_length_pos hj
    obtain rfl := Host.Outcome.next.inj hrun
    exact ⟨h.echoSafe, _, nextCycle?_of_busCycle hscript⟩
  | succ j ih =>
    obtain ⟨x, xs, rfl⟩ := List.exists_cons_of_length_pos (Nat.zero_lt_of_lt hj)
    obtain ⟨u, hstep⟩ := exists_step s
    obtain ⟨k', hu⟩ := echoRun_step hn h hscript hstep
    have hrest := (script_of_step hstep).trans (congrArg List.tail hscript)
    exact ih hu hrest (Nat.lt_of_succ_lt_succ hj) ((run_succ (M := core) hstep j).symm.trans hrun)

end Sys2Proof.Machine
end

section
/-! CLAIMS. Reset, bring-up, what the engine does not read, and the hazards of its own SDA changes
(spec/70_reset_and_hazards.md). -/

namespace Sys2Proof.Machine

/-! ## History (R115, R191) -/

/-- Settles O48: both histories present the same event, so the same operation is selected, and each operation rewrites a
stale register or leaves it dead. -/
theorem historyIndependence : Obligations.HistoryIndependence := by
  intro s t h hpins
  obtain ⟨s', hs⟩ := exists_step s
  obtain ⟨op, hop, rfl⟩ := step_cases hs
  have hevent := eventOf_of_sameFuture h hpins
  have hlatched : t.latched = t.enter (s.eventOf s.nextStimulus) := by rw [State.latched, hevent]
  have hopt : t.nextOp = some op := by
    rw [← hop, ← State.nextOp, nextOp_eq, nextOp_eq, hlatched, h.busStarted]
    rfl
  have hopen : op = .sclf ∨ op = .sclr → s.busStarted = true := by
    rintro (rfl | rfl)
    · exact busStarted_of_sclOp (rise := false) hop
    · exact busStarted_of_sclOp (rise := true) hop
  have hentered : s.latched.SameFuture t.latched := by
    rw [hlatched]
    exact sameFuture_enter h _
  obtain ⟨hfuture, hout⟩ := sameFuture_opEffect hentered (by rw [hlatched]; rfl) rfl hopen
  exact ⟨_, _, hs, step_op hopt, sameFuture_finishStep h hpins hfuture, by simpa using hout⟩

/-- Settles O49: in Idle no transaction is open, so every register that may differ is dead. -/
theorem idleStatesShareTheirFuture : Obligations.IdleStatesShareTheirFuture := by
  intro s t hs ht hsidle htidle hsync hscript hfree
  have hsclosed := hs.idleIff.mp hsidle
  have htclosed := ht.idleIff.mp htidle
  have hsrestarted : s.busRestarted = false := by simpa [hsclosed] using hs.restartedOpen
  have htrestarted : t.busRestarted = false := by simpa [htclosed] using ht.restartedOpen
  exact sameFuture_of_closed (hsidle.trans htidle.symm) hsclosed htclosed (hsrestarted.trans htrestarted.symm) hsync
    hscript hfree

/-! ## Reset and bring-up (R190, R192, R193) -/

/-- Settles O14: RESET's row selects its words, and its meaning writes the table of R190. -/
theorem resetResult : Obligations.ResetResult := by
  refine ⟨fun w => ?_, fun _ _ _ _ _ _ => rfl⟩
  exact level1Op_of_row (r := ⟨.reset, 0x8000, 0x8000⟩) (by decide)

/-- Settles O59: RESET sets the registers, and the three HOLD cycles move the pins' levels through the synchronisers. -/
theorem bringUpSettles : Obligations.BringUpSettles := by
  intro s r c1 c2 c3 rest p q hscript hr hhold
  have hreset := step_of_reset_cycle (nextCycle?_of_script hscript) hr
  have hscript1 : s.latched.resetRegisters.script = .cycle c1 :: .cycle c2 :: .cycle c3 :: rest :=
    congrArg List.tail hscript
  have hstep1 := step_of_steady_hold hscript1 (hhold c1 (by simp))
  have hscript2 := (script_of_step hstep1).trans (congrArg List.tail hscript1)
  have hstep2 := step_of_steady_hold hscript2 (hhold c2 (by simp))
  have hscript3 := (script_of_step hstep2).trans (congrArg List.tail hscript2)
  have hstep3 := step_of_steady_hold hscript3 (hhold c3 (by simp))
  have hscript4 := (script_of_step hstep3).trans (congrArg List.tail hscript3)
  refine ⟨_, (run_succ hreset 3).trans <| (run_succ hstep1 2).trans <| (run_succ hstep2 1).trans <|
    run_succ hstep3 0, ?_⟩
  exact ⟨rfl, rfl, rfl, rfl, rfl, rfl, rfl, rfl, rfl, rfl, rfl, rfl, rfl, rfl, rfl, detectFlags_eq_zero rfl rfl,
    hscript4⟩

/-! ## What is read when (R201, R205) -/

/-- Settles O44: without its strobe, no SCL step reads the answer, and nothing else does. -/
theorem answersReadOnlyInTheirEvent : Obligations.AnswersReadOnlyInTheirEvent := by
  intro s t e hstep
  obtain ⟨-, htx, hrx, -⟩ := strobesComeFromTheirCauses (s.given e) t hstep
  refine ⟨fun hquiet a => step_given_of_sameReads hstep rfl fun hscl => ?_,
    fun hquiet b => step_given_of_sameReads hstep rfl fun hscl => ?_⟩
  · have hno : t.out.rxValid ≠ true := by simp [hquiet]
    exact ⟨rfl, fun _ _ => rfl, fun h15 hst => absurd (hrx.mpr ⟨hscl, h15, hst⟩) hno, fun _ _ => rfl⟩
  · have hno : t.out.txReq ≠ true := by simp [hquiet]
    exact ⟨rfl, fun h0 hst => absurd (htx.mpr ⟨hscl, h0, hst⟩) hno, fun _ _ => rfl, fun _ _ => rfl⟩

/-- Settles O45: of the SCL steps the compare alone reads `bus_addr`, and it decides whether the engine stays. -/
theorem busAddressReadOnlyInCompare : Obligations.BusAddressReadOnlyInCompare := by
  intro s t e hstep
  refine ⟨fun hno a => step_given_of_sameReads hstep rfl fun hscl => ?_,
    fun hscl h15 haddr => compare_of_nextIsSclStep hstep hscl h15 haddr⟩
  exact ⟨rfl, fun _ _ => rfl, fun _ _ => rfl, fun h15 haddr => absurd ⟨hscl, h15, haddr⟩ hno⟩

/-! ## The engine's own SDA (R195, R196, R198) -/

/-- Settles O54: the eight clocks send the byte of their first event, and the ACK slot shows the `needAck` of before. -/
theorem extraByteReleasesAtIndex16 : Obligations.ExtraByteReleasesAtIndex16 := by
  intro s a levels x rest hopen htx h0 hack hlen hscript
  obtain ⟨p, ps, rfl⟩ := List.exists_cons_of_length_eq_add_one hlen
  have h0 : s.edgeCounter.val = 0 := by simp [h0]
  have hothers : (ps.map (clockOf a)).length = 7 := by simpa using hlen
  refine ⟨⟨_, run_succ (step_of_event hscript) 0, ?_⟩, ?_⟩
  · rw [after_of_edge (rise := false) hopen (by simp [edgeOf]),
      sclStep_zero_fall_transmitting (s := s.enter _) h0 htx]
    exact ⟨rfl, rfl, rfl⟩
  · have hevents : s.script =
        (clockEvents ((p :: ps).map (clockOf a)) ++ [(Token.f x).event a]).map .event ++ rest := by
      rw [hscript, List.map_append, ← stimuli_sclClocks, stimuli, List.map_append]
      rfl
    have hlength : (clockEvents ((p :: ps).map (clockOf a)) ++ [(Token.f x).event a]).length = 17 := by
      simp [length_clockEvents] at hlen ⊢
      omega
    have hrun := (run_events hevents).1
    obtain ⟨hindex, -, -, -, hstarted, hkept, -⟩ := sent_all_clocks (first := clockOf a p) hopen htx h0 hothers
    rw [length_sclEdges_laterEvents hothers] at hindex
    obtain ⟨hpin, -, hend⟩ :=
      after_at_ackSlot (f := (Token.f x).event a) (rise := false) hstarted hindex (by simp [edgeOf])
    rw [hlength, afterEvents_concat] at hrun
    exact ⟨_, hrun, hpin.trans (hkept.trans hack), hend⟩

/-- Settles O60: the settled state starts a run in which every change of SDA is made, and passes the synchroniser, at
SCL low. -/
theorem ownEchoNeverStartsOrStops : Obligations.OwnEchoNeverStartsOrStops := by
  intro s t levels master a rest n k hal hsclMeta hsclSync hsclPrev hsdaMeta hsdaSync hsdaPrev hfloor hslow hscript hk
    hrun
  have hn : 5 ≤ n := hfloor
  have hstart : s.EchoRun master n n levels :=
    { aligned := hal
      echoSafe := ⟨absurd hsdaMeta, absurd (hsdaSync.trans hsdaMeta.symm), absurd (hsdaPrev.trans hsdaSync.symm)⟩
      sclRun :=
        { pos := by omega
          sclSync := by rw [if_pos (by omega), hsclSync, hsclMeta]
          sclPrev := by rw [if_pos (by omega), hsclPrev, hsclMeta] }
      slow := by rwa [hsclMeta] }
  obtain ⟨hsafe, c, hc⟩ := echoRun_run (a := a) (by omega) hstart hscript hk hrun
  exact not_startStop_of_echoSafe hsafe hc

end Sys2Proof.Machine
end
